-- ==== Sys2Proof/Word.lean ====
section
/-! DEFINITION. The word types of the CORE: bytes, 16-bit and 32-bit register values, and the 16-byte block
(00_scope.md R12, R18). All values are unsigned. -/

namespace Sys2Proof

/-- A byte: 8 bits, 0 to 255 (R18). -/
abbrev Byte := BitVec 8

/-- A 16-bit register value. -/
abbrev Half := BitVec 16

/-- A 32-bit register value (`TIMESTAMP`). -/
abbrev Word32 := BitVec 32

/-- A cipher block, an IV or a chaining value: sixteen bytes (R12). -/
abbrev Block := Vector Byte 16

end Sys2Proof
end

