-- ==== Sys2Proof/Config.lean ====
section
/-! DEFINITION. What a platform fixes for one CORE (`Params`: MAX_DATA and the cipher binding, 00_scope.md R9, R14)
and the free values the spec leaves open, each an opaque constant without a body. -/

namespace Sys2Proof

/-- The recognised encryption schemes other than None (30_encoding.md R111). -/
inductive Scheme where
  | scheme128
  | scheme192
  | scheme256
  deriving DecidableEq, Repr

/-- What the platform binds to `BlockEnc` (44_block_cipher.md R237, R248): AES, the default, or another cipher with
16-byte blocks, of which the model knows nothing but its number. -/
inductive CipherBinding where
  | aes
  | platform (n : Nat)
  deriving DecidableEq, Repr

/-- The open parameters of one CORE (92_eei_decisions.md section 7). -/
structure Params where
  /-- `MAX_DATA`, the largest payload length (R9) -/
  maxData : Nat
  /-- the binding of `BlockEnc` (R14) -/
  cipher  : CipherBinding
  deriving DecidableEq, Repr

/-- The defaults: MAX_DATA 479 (R9) and AES (R237). -/
def Params.default : Params := { maxData := 479, cipher := .aes }

/-- One atomic reading of the clock port: six numbers (10_state.md R47). -/
structure ClockReading where
  year   : Half
  month  : Byte
  day    : Byte
  hour   : Byte
  minute : Byte
  second : Byte
  deriving DecidableEq, Repr, Inhabited

/-- The byte stores of the CORE: host-visible KEY, EV, FB, PB and internal PT, IV, CHAIN
(10_state.md R24, R35, R41, R42, R44). -/
inductive Buffer where
  | key
  | ev
  | fb
  | pb
  | pt
  | iv
  | chain
  deriving DecidableEq, Repr

/-- FREE VALUE. What a byte of a buffer holds that nothing has written since the reset of that number
(10_state.md R50 "unspecified"; 93_implementation_defined.md U20 to U22). Arguments: buffer, number of the reset,
offset. Log 6. -/
opaque Config.unwritten : Buffer → Nat → Nat → Byte

/-- FREE VALUE. What a byte of FB beyond FRAME_LEN, or of PB beyond PKT_LEN, reads as (10_state.md R41, R42; U23).
Arguments: buffer, epoch, offset. Log 7. -/
opaque Config.tailByte : Buffer → Nat → Nat → Byte

/-- FREE VALUE. The clock's answer to the reading of that number, where the port holds no answer of its own
(00_scope.md R15; U4). Log 5. -/
opaque Config.utcNow : Nat → ClockReading

/-- FREE VALUE. The entropy source's answer to the read of that number, where the port holds no answer of its own:
sixteen bytes, or `none` for `unavailable` (00_scope.md R16; U5, U6). Log 5. -/
opaque Config.entropyDraw : Nat → Option Block

/-- FREE VALUE. `BlockEnc` of a platform cipher: a total, deterministic function of scheme, key and block
(44_block_cipher.md R235). Log 4. -/
opaque Config.platformBlockEnc : Nat → Scheme → List Byte → Block → Block

end Sys2Proof
end

