-- ==== Sys2Proof/Syntax.lean ====
section
/-! DEFINITION. The syntax: the six commands, one constructor per row of spec/opcode_table.json, and what the host can
do to the CORE (30_encoding.md R92, R96). -/

namespace Sys2Proof

/-- The commands (30_encoding.md R92). A command has no operand field: every operand is a register (R90, R95). -/
inductive Instr where
  /-- `BUILD`, 40_frame_builder.md R130 -/
  | build
  /-- `CRC_APPEND`, 41_checksum_engine.md R170 -/
  | crcAppend
  /-- `ENCRYPT`, 42_encryption_wrapper.md R190 -/
  | encrypt
  /-- `SEND`, 43_pipeline.md R220 -/
  | send
  /-- `CRC_INIT`, 41_checksum_engine.md R166 -/
  | crcInit
  /-- `CRC_UPDATE`, 41_checksum_engine.md R167 -/
  | crcUpdate
  deriving DecidableEq, Repr

/-- The four address spaces (20_memory.md R60). -/
inductive Space where
  | csr
  | ev
  | fb
  | pb
  deriving DecidableEq, Repr

/-- What the outside does to the CORE, one at a time: a host byte write or byte read of (space, offset)
(30_encoding.md R96), or the platform's reset line (70_reset_and_hazards.md R300). -/
inductive HostAction where
  | write (sp : Space) (off : Nat) (v : Byte)
  | read  (sp : Space) (off : Nat)
  | reset
  deriving DecidableEq, Repr

end Sys2Proof
end

