-- ==== Sys2Proof/WellFormed.lean ====
section
/-! DEFINITION. The checks on terms: a command needs none (30_encoding.md R90: no field), parameters keep the bound of
00_scope.md R9, a clock reading the property of 10_state.md R47. -/

namespace Sys2Proof

/-- Every command is well formed: format CMD8 has an operation code and nothing else (30_encoding.md R90, R94). -/
def Instr.wellFormed : Instr → Bool
  | .build => true
  | .crcAppend => true
  | .encrypt => true
  | .send => true
  | .crcInit => true
  | .crcUpdate => true

/-- `0 <= MAX_DATA <= 65467` (00_scope.md R9). -/
def Params.wellFormed (p : Params) : Bool := decide (p.maxData ≤ 65467)

/-- The named property `ClockFourDigitYear`: `1000 <= y <= 9999` (10_state.md R47). -/
def ClockReading.fourDigitYear (r : ClockReading) : Bool :=
  decide (1000 ≤ r.year.toNat) && decide (r.year.toNat ≤ 9999)

end Sys2Proof
end

