-- ==== Sys2Proof/Decode.lean ====
section
/-! DEFINITION. The command codes: the opcode table, the decoder, total on every byte and naming the code it rejects,
and the encoder (30_encoding.md R90, R92, R93; spec/opcode_table.json). -/

namespace Sys2Proof

/-- One row of the opcode table: the bits of the command byte that are fixed and their value. -/
structure OpcodeRow where
  mask  : Byte
  bits  : Byte
  instr : Instr
  deriving DecidableEq, Repr

/-- The rows of 30_encoding.md R92, in the table's order. -/
def opcodeTable : List OpcodeRow :=
  [ ⟨0xFF, 0x01, .build⟩,
    ⟨0xFF, 0x02, .crcAppend⟩,
    ⟨0xFF, 0x03, .encrypt⟩,
    ⟨0xFF, 0x04, .send⟩,
    ⟨0xFF, 0x10, .crcInit⟩,
    ⟨0xFF, 0x11, .crcUpdate⟩ ]

/-- Does the command byte have the row's fixed bits? -/
def OpcodeRow.hits (r : OpcodeRow) (code : Byte) : Bool := code &&& r.mask == r.bits

/-- Why a byte is no command: its code names none (30_encoding.md R93). -/
inductive DecodeReject where
  | illegalCode (code : Byte)
  deriving DecidableEq, Repr

/-- The command whose code was written to `CMD`, or the illegal code by name (30_encoding.md R92, R93). -/
def decode (code : Byte) : Except DecodeReject Instr :=
  match opcodeTable.find? (fun r => r.hits code) with
  | some r => .ok r.instr
  | none => .error (.illegalCode code)

/-- The code of a command (30_encoding.md R92). -/
def encode : Instr → Byte
  | .build => 0x01
  | .crcAppend => 0x02
  | .encrypt => 0x03
  | .send => 0x04
  | .crcInit => 0x10
  | .crcUpdate => 0x11

/-- The command byte of a table word: a command is one byte (R90), so the word's low eight bits; the bits from `nbits`
on are zero. -/
def tableByte (nbits w : Nat) : Byte := BitVec.ofNat 8 (w % 2 ^ nbits)

/-- The command the decoder reads from a table word of `nbits` bits. -/
def decodeTableWord (nbits w : Nat) : Option Instr :=
  match decode (tableByte nbits w) with
  | .ok i => some i
  | .error _ => none

end Sys2Proof
end

