-- ==== Sys2Proof/Machine/Aes.lean ====
section
/-! DEFINITION. AES, the forward cipher, the default binding of `BlockEnc` (44_block_cipher.md R238 to R246, supplied
there from general knowledge; log 12). The state `s[r][c]` is the list of its sixteen bytes column by column: byte
`r + 4c` (R240). A schedule word is a list of four bytes. -/

namespace Sys2Proof.Machine

/-- The rows of `SBOX` as the spec prints them: row = high nibble, each a number of sixteen bytes, column 0 highest
(R241). -/
def sboxRows : List Nat :=
  [ 0x63_7c_77_7b_f2_6b_6f_c5_30_01_67_2b_fe_d7_ab_76,
    0xca_82_c9_7d_fa_59_47_f0_ad_d4_a2_af_9c_a4_72_c0,
    0xb7_fd_93_26_36_3f_f7_cc_34_a5_e5_f1_71_d8_31_15,
    0x04_c7_23_c3_18_96_05_9a_07_12_80_e2_eb_27_b2_75,
    0x09_83_2c_1a_1b_6e_5a_a0_52_3b_d6_b3_29_e3_2f_84,
    0x53_d1_00_ed_20_fc_b1_5b_6a_cb_be_39_4a_4c_58_cf,
    0xd0_ef_aa_fb_43_4d_33_85_45_f9_02_7f_50_3c_9f_a8,
    0x51_a3_40_8f_92_9d_38_f5_bc_b6_da_21_10_ff_f3_d2,
    0xcd_0c_13_ec_5f_97_44_17_c4_a7_7e_3d_64_5d_19_73,
    0x60_81_4f_dc_22_2a_90_88_46_ee_b8_14_de_5e_0b_db,
    0xe0_32_3a_0a_49_06_24_5c_c2_d3_ac_62_91_95_e4_79,
    0xe7_c8_37_6d_8d_d5_4e_a9_6c_56_f4_ea_65_7a_ae_08,
    0xba_78_25_2e_1c_a6_b4_c6_e8_dd_74_1f_4b_bd_8b_8a,
    0x70_3e_b5_66_48_03_f6_0e_61_35_57_b9_86_c1_1d_9e,
    0xe1_f8_98_11_69_d9_8e_94_9b_1e_87_e9_ce_55_28_df,
    0x8c_a1_89_0d_bf_e6_42_68_41_99_2d_0f_b0_54_bb_16 ]

/-- `SBOX[a]` (R241). -/
def subByte (a : Byte) : Byte :=
  BitVec.ofNat 8 ((sboxRows.getD (a.toNat / 16) 0) >>> (8 * (15 - a.toNat % 16)))

/-- Multiplication by 0x02 in GF(2^8) (R239). -/
def xtime (a : Byte) : Byte := if a.getLsbD 7 then (a <<< 1) ^^^ 0x1B else a <<< 1

/-- Multiplication by 0x03 (R239). -/
def mul3 (a : Byte) : Byte := xtime a ^^^ a

/-- `SubBytes` (R241). -/
def subBytes (s : List Byte) : List Byte := s.map subByte

/-- `ShiftRows`: `s'[r][c] = s[r][(c + r) mod 4]` (R242). -/
def shiftRows (s : List Byte) : List Byte :=
  (List.range 16).map (fun i => s.getD (i % 4 + 4 * ((i / 4 + i % 4) % 4)) 0x00)

/-- `MixColumns`, column by column (R243). -/
def mixColumns : List Byte → List Byte
  | a0 :: a1 :: a2 :: a3 :: rest =>
    (xtime a0 ^^^ mul3 a1 ^^^ a2 ^^^ a3) ::
    (a0 ^^^ xtime a1 ^^^ mul3 a2 ^^^ a3) ::
    (a0 ^^^ a1 ^^^ xtime a2 ^^^ mul3 a3) ::
    (mul3 a0 ^^^ a1 ^^^ a2 ^^^ xtime a3) :: mixColumns rest
  | _ => []

/-- `RotWord((a0,a1,a2,a3)) = (a1,a2,a3,a0)` (R245). -/
def rotWord (w : List Byte) : List Byte := w.drop 1 ++ w.take 1

/-- `Rcon[j]`, `j` from 1 (R245). -/
def rcon (j : Nat) : Byte :=
  [0x01, 0x02, 0x04, 0x08, 0x10, 0x20, 0x40, 0x80, 0x1B, 0x36].getD (j - 1) 0x00

/-- What is xored into `w[i-Nk]` to give `w[i]`, from `t = w[i-1]` (R245). -/
def scheduleTemp (nk i : Nat) (t : List Byte) : List Byte :=
  if i % nk = 0 then List.zipWith (· ^^^ ·) ((rotWord t).map subByte) [rcon (i / nk), 0x00, 0x00, 0x00]
  else if nk = 8 ∧ i % nk = 4 then t.map subByte
  else t

/-- The schedule grown by `n` words (R245). -/
def expandWords (nk : Nat) : Nat → List (List Byte) → List (List Byte)
  | 0, w => w
  | n + 1, w =>
    let i := w.length
    expandWords nk n
      (w ++ [List.zipWith (· ^^^ ·) (w.getD (i - nk) []) (scheduleTemp nk i (w.getD (i - 1) []))])

/-- `KeyExpansion`: `4 * (Nr + 1)` words with `Nr = Nk + 6` (R238, R245). -/
def keyExpansion (nk : Nat) (key : List Byte) : List (List Byte) :=
  expandWords nk (4 * (nk + 7) - nk) ((List.range nk).map (fun i => (key.drop (4 * i)).take 4))

/-- `AddRoundKey(round)` (R244). -/
def addRoundKey (w : List (List Byte)) (round : Nat) (s : List Byte) : List Byte :=
  List.zipWith (· ^^^ ·) s ((w.drop (4 * round)).take 4).flatten

/-- `n` full rounds, the first of number `round` (R246). -/
def aesRounds (w : List (List Byte)) : Nat → Nat → List Byte → List Byte
  | 0, _, s => s
  | n + 1, round, s =>
    aesRounds w n (round + 1) (addRoundKey w round (mixColumns (shiftRows (subBytes s))))

/-- `AES(key, in)`, with `Nk = nk` (R246). -/
def aesEncrypt (nk : Nat) (key : List Byte) (input : List Byte) : List Byte :=
  let w := keyExpansion nk key
  let nr := nk + 6
  addRoundKey w nr (shiftRows (subBytes (aesRounds w (nr - 1) 1 (addRoundKey w 0 input))))

end Sys2Proof.Machine
end

