-- ==== Sys2Proof/Machine/Limits.lean ====
section
/-! DEFINITION. Lengths and capacities (00_scope.md R9 to R13, R18; 20_memory.md R60), all natural numbers, so that no
sum wraps (R175, R208). -/

namespace Sys2Proof.Machine

/-- `HEADER_LENGTH` (R10). -/
def headerLength : Nat := 35

/-- `BLOCK_LEN` and `IV_LEN` (R12). -/
def blockLen : Nat := 16

/-- `ceil16(x) = 16 * ((x + 15) div 16)` (R18). -/
def ceil16 (x : Nat) : Nat := 16 * ((x + 15) / 16)

/-- `FB_CAP = 1 + HEADER_LENGTH + MAX_DATA + 2` (R11). -/
def fbCap (p : Params) : Nat := 1 + headerLength + p.maxData + 2

/-- `PB_CAP = 1 + ceil16(FB_CAP - 1) + IV_LEN` (R13). -/
def pbCap (p : Params) : Nat := 1 + ceil16 (fbCap p - 1) + blockLen

/-- Size of the EV space (R60). -/
def evSize (p : Params) : Nat := 36 + p.maxData

/-- Size of PT (10_state.md R44). -/
def ptCap (p : Params) : Nat := ceil16 (fbCap p - 1)

/-- Number of KEY bytes (10_state.md R35). -/
def keySize : Nat := 32

/-- Offset of `CMD` in the CSR space (20_memory.md R61). -/
def cmdOffset : Nat := 0

end Sys2Proof.Machine
end

