-- ==== Sys2Proof/Machine/Memory.lean ====
section
/-! DEFINITION. A byte store: a list of (offset, byte) cells in one canonical form, offsets strictly rising. A cell is
there exactly when the byte has been written; a byte with no cell holds a free value, which the state supplies
(log 6), so no cell can equal what an unlisted offset reads as. -/

namespace Sys2Proof.Machine

/-- The written bytes of one buffer, by offset. -/
abbrev Memory := List Host.Cell

/-- The byte written at an offset, if one was. -/
def Memory.lookup : Memory → Nat → Option Byte
  | [], _ => none
  | (k, v) :: m, a => if a = k then some v else Memory.lookup m a

/-- Write one byte, keeping the offsets rising. -/
def Memory.store : Memory → Nat → Byte → Memory
  | [], a, b => [(a, b)]
  | (k, v) :: m, a, b =>
    if a < k then (a, b) :: (k, v) :: m
    else if a = k then (a, b) :: m
    else (k, v) :: Memory.store m a b

/-- Write a byte string at rising offsets from `a`. -/
def Memory.storeAll (m : Memory) (a : Nat) : List Byte → Memory
  | [] => m
  | b :: bs => Memory.storeAll (m.store a b) (a + 1) bs

/-- Every offset of the list is at least `lo` and they rise strictly. -/
def Memory.risingFrom : Nat → Memory → Bool
  | _, [] => true
  | lo, (k, _) :: m => decide (lo ≤ k) && Memory.risingFrom (k + 1) m

/-- The canonical form. -/
def Memory.wf (m : Memory) : Bool := Memory.risingFrom 0 m

/-- Every written offset is below `n`. -/
def Memory.within (m : Memory) (n : Nat) : Bool := m.all (fun c => decide (c.1 < n))

end Sys2Proof.Machine
end

