-- ==== Sys2Proof/Machine/State.lean ====
section
/-! DEFINITION. The state of the CORE as plain data (10_state.md; INVENTORY.md lists every field with its rule), the
state after reset, and the reasons a step could stop: there is none in this spec. -/

namespace Sys2Proof.Machine

/-- The observability events, a closed set (10_state.md R46). -/
inductive ObsEvent where
  | checksumComputed
  | frameBuilt
  | encryptionApplied
  deriving DecidableEq, Repr

/-- The state. The first group is the spec's; `cfg` holds the parameters of the step (log 3, log 4); the last group is
the model's own (logs 1, 2, 5, 6, 7). -/
structure State where
  /-- the parameters MAX_DATA and BlockEnc; no step changes them -/
  cfg      : Params
  /-- `STATUS` (R37) -/
  status   : Byte
  /-- `EV_KIND` (R33) -/
  evKind   : Byte
  /-- `ENC_KIND` (R34) -/
  encKind  : Byte
  /-- `KEYLEN` (R35) -/
  keyLen   : Byte
  /-- `CRC_DIN` (R39) -/
  crcDin   : Byte
  /-- `CRC` (R38) -/
  crc      : Half
  /-- `CRC_START` (R40) -/
  crcStart : Half
  /-- `CRC_END` (R40) -/
  crcEnd   : Half
  /-- `FRAME_LEN` (R41) -/
  frameLen : Half
  /-- `PKT_LEN` (R42) -/
  pktLen   : Half
  /-- `KEY[0..31]` (R35) -/
  key      : Memory
  /-- the event register file EV (R24 to R32) -/
  ev       : Memory
  /-- the frame buffer `FB` (R41) -/
  fb       : Memory
  /-- the packet buffer `PB` (R42) -/
  pb       : Memory
  /-- the staging buffer `PT` (R44) -/
  pt       : Memory
  /-- the initialization vector `IV` (R44) -/
  iv       : Memory
  /-- the chaining value `CHAIN` (R44) -/
  chain    : Memory
  /-- the observability log `OBS`, oldest first (R46) -/
  obs      : List ObsEvent
  /-- the ghost set `IV_HISTORY`, a list with no repeats (R48) -/
  ivHistory : List Block
  /-- the clock's answers still to come (R47) -/
  clockPort : List ClockReading
  /-- how many times the clock was read -/
  clockReads : Nat
  /-- the entropy source's answers still to come, `none` for `unavailable` (R48) -/
  entropyPort : List (Option Block)
  /-- how many times the entropy port was read -/
  entropyReads : Nat
  /-- what the host and the platform do next, first action first (R20, R71) -/
  inputs   : List HostAction
  /-- the bytes host reads returned, oldest first (R64) -/
  answers  : List Byte
  /-- number of the draw that unspecified bytes of FB and PB take -/
  epoch    : Nat
  /-- number of the draw that never written bytes take -/
  resets   : Nat
  deriving DecidableEq, Repr

/-- Reasons for a step with no successor: none. "Nothing in this spec is treated as `fault` or `stuck`: every command
has a defined successor state for every value of every register" (93_implementation_defined.md section 2). -/
inductive Fault where
  deriving DecidableEq, Repr

/-- Reasons for leaving a step without a meaning. -/
inductive Refusal where
  /-- An arm of `exec` whose instruction has no meaning in the model yet; raised by `exec` alone, and by no arm now.
  Safe: nothing is claimed of a refused instruction. -/
  | notModelled (mnemonic : String)
  deriving DecidableEq, Repr

/-- The state after reset (10_state.md R50): every control register at its listed value, no buffer byte written, logs
empty; parameters at their defaults (R9, R237); the model's own fields empty or 0 (log 9). -/
def State.reset : State where
  cfg := Params.default
  status := 0x00
  evKind := 0x00
  encKind := 0x00
  keyLen := 0x00
  crcDin := 0x00
  crc := 0xFFFF
  crcStart := 0x0000
  crcEnd := 0x0000
  frameLen := 0x0000
  pktLen := 0x0000
  key := []
  ev := []
  fb := []
  pb := []
  pt := []
  iv := []
  chain := []
  obs := []
  ivHistory := []
  clockPort := []
  clockReads := 0
  entropyPort := []
  entropyReads := 0
  inputs := []
  answers := []
  epoch := 0
  resets := 0

end Sys2Proof.Machine
end

