-- ==== Sys2Proof/Machine/Flags.lean ====
section
/-! DEFINITION. The CORE has no condition codes (10_state.md R43); its only status is the field `STATUS.ERR` (R37) and
the two lengths whose zero means "absent". -/

namespace Sys2Proof.Machine

/-- The failures of a command (60_exceptions.md R261). -/
inductive CmdError where
  | typeMismatch
  | dataTooLarge
  | invalidKey
  | unsupportedScheme
  | entropySource
  | operand
  | illegalCommand
  deriving DecidableEq, Repr

/-- The error codes (R261). -/
def CmdError.code : CmdError → BitVec 4
  | .typeMismatch => 1
  | .dataTooLarge => 2
  | .invalidKey => 3
  | .unsupportedScheme => 4
  | .entropySource => 5
  | .operand => 6
  | .illegalCommand => 7

/-- `STATUS.ERR = STATUS[3:0]` (10_state.md R37). -/
def State.err (s : State) : BitVec 4 := s.status.extractLsb' 0 4

/-- `STATUS[7:4]`, reserved (10_state.md R37). -/
def State.statusReserved (s : State) : BitVec 4 := s.status.extractLsb' 4 4

/-- `STATUS.ERR <- c`: the field alone. -/
def State.setErr (s : State) (c : BitVec 4) : State := { s with status := s.statusReserved ++ c }

/-- Is a frame present? `FRAME_LEN = 0` means none (10_state.md R41). -/
def State.framePresent (s : State) : Bool := s.frameLen != 0

/-- Is a packet present? `PKT_LEN = 0` means none (10_state.md R42). -/
def State.packetPresent (s : State) : Bool := s.pktLen != 0

end Sys2Proof.Machine
end

