-- ==== Sys2Proof/Machine/Ops.lean ====
section
/-! DEFINITION. The shared operations over the state: reading and writing buffer bytes, the two input ports, the
observability log, and taking and leaving an error (60_exceptions.md R266, R268). -/

namespace Sys2Proof.Machine

/-- The cells of a buffer. -/
def State.buffer (s : State) : Buffer → Memory
  | .key => s.key
  | .ev => s.ev
  | .fb => s.fb
  | .pb => s.pb
  | .pt => s.pt
  | .iv => s.iv
  | .chain => s.chain

/-- Replace the cells of a buffer. -/
def State.setBuffer (s : State) (b : Buffer) (m : Memory) : State :=
  match b with
  | .key => { s with key := m }
  | .ev => { s with ev := m }
  | .fb => { s with fb := m }
  | .pb => { s with pb := m }
  | .pt => { s with pt := m }
  | .iv => { s with iv := m }
  | .chain => { s with chain := m }

/-- The byte a buffer holds at an offset: the byte written there, or the free value of a byte never written (log 6). -/
def State.byteAt (s : State) (b : Buffer) (a : Nat) : Byte :=
  ((s.buffer b).lookup a).getD (Config.unwritten b s.resets a)

/-- The slice `BUF[a..a+n)` (00_scope.md R18). -/
def State.bytes (s : State) (b : Buffer) (a n : Nat) : List Byte :=
  (List.range n).map (fun i => s.byteAt b (a + i))

/-- `BUF[a..a+len(bs)) <- bs`. -/
def State.put (s : State) (b : Buffer) (a : Nat) (bs : List Byte) : State :=
  s.setBuffer b ((s.buffer b).storeAll a bs)

/-- The unspecified bytes of FB and PB take a new draw (log 7). -/
def State.redrawTails (s : State) : State := { s with epoch := s.epoch + 1 }

/-- `PT`, `IV` and `CHAIN` are unspecified after a command (10_state.md R44; log 8). -/
def State.forgetWork (s : State) : State := { s with pt := [], iv := [], chain := [] }

/-- `Emit(e)` (00_scope.md R18; 10_state.md R46). -/
def State.emit (s : State) (e : ObsEvent) : State := { s with obs := s.obs ++ [e] }

/-- `UtcNow()`: the clock port's next answer, a free value where it holds none (10_state.md R47; log 5). -/
def State.utcNow (s : State) : ClockReading :=
  match s.clockPort with
  | r :: _ => r
  | [] => Config.utcNow s.clockReads

/-- The clock has been read once. -/
def State.clockRead (s : State) : State :=
  { s with clockPort := s.clockPort.tail, clockReads := s.clockReads + 1 }

/-- `EntropyDraw()`: the entropy port's next answer, a free value where it holds none (10_state.md R48; log 5). -/
def State.entropyDraw (s : State) : Option Block :=
  match s.entropyPort with
  | r :: _ => r
  | [] => Config.entropyDraw s.entropyReads

/-- The entropy port has been read once. -/
def State.entropyRead (s : State) : State :=
  { s with entropyPort := s.entropyPort.tail, entropyReads := s.entropyReads + 1 }

/-- `IV_HISTORY <- IV_HISTORY + {iv}` (42_encryption_wrapper.md R190). -/
def State.recordIv (s : State) (iv : Block) : State :=
  { s with ivHistory := if iv ∈ s.ivHistory then s.ivHistory else iv :: s.ivHistory }

/-- The first act of every command: `STATUS <- 0` (10_state.md R37). It is also how an error is left: there is no
handler and no return (60_exceptions.md R268). -/
def State.beginCommand (s : State) : State := { s with status := 0x00 }

/-- Withdraw the frame: `FRAME_LEN <- 0`, so every FB byte is now tail (40_frame_builder.md R143). -/
def State.withdrawFrame (s : State) : State := { s with frameLen := 0x0000 }.redrawTails

/-- Withdraw the packet: `PKT_LEN <- 0`, so every PB byte is unspecified (42_encryption_wrapper.md R205). -/
def State.withdrawPacket (s : State) : State := { s with pktLen := 0x0000 }.redrawTails

/-- Whose failure it is: the output that is withdrawn depends on it (60_exceptions.md R266). -/
inductive Stage where
  | build
  | crcAppend
  | encrypt
  | dispatch
  deriving DecidableEq, Repr

/-- `raise E`, the one error entry (60_exceptions.md R266): (a) `STATUS.ERR <- code(E)`; (b) BUILD withdraws the frame,
ENCRYPT the packet, CRC_APPEND and the illegal command nothing; (c) the command ends. -/
def State.raise (s : State) (st : Stage) (e : CmdError) : State :=
  match st with
  | .build => (s.setErr e.code).withdrawFrame
  | .crcAppend => s.setErr e.code
  | .encrypt => (s.setErr e.code).withdrawPacket
  | .dispatch => s.setErr e.code

end Sys2Proof.Machine
end

