-- ==== Sys2Proof/Machine/Operands.lean ====
section
/-! DEFINITION. Byte order and operand assembly (00_scope.md R18; 20_memory.md R65; 30_encoding.md R95), and the
members of the event register file EV as views of its bytes (10_state.md R25 to R32; 20_memory.md R62). -/

namespace Sys2Proof.Machine

/-- `v[15:8]`. -/
def hi8 (v : Half) : Byte := v.extractLsb' 8 8

/-- `v[7:0]`. -/
def lo8 (v : Half) : Byte := v.extractLsb' 0 8

/-- `be16(v)`: most significant byte first. -/
def be16 (v : Half) : List Byte := [hi8 v, lo8 v]

/-- `be32(v)`: most significant byte first. -/
def be32 (v : Word32) : List Byte :=
  [v.extractLsb' 24 8, v.extractLsb' 16 8, v.extractLsb' 8 8, v.extractLsb' 0 8]

/-- `u16(b0, b1) = b0*256 + b1`. -/
def u16 (b0 b1 : Byte) : Half := b0 ++ b1

/-- The 32-bit value of four bytes, most significant first. -/
def u32 (b0 b1 b2 b3 : Byte) : Word32 := b0 ++ b1 ++ b2 ++ b3

/-- The bytewise exclusive or of two byte strings of equal length. -/
def xorBytes (x y : List Byte) : List Byte := List.zipWith (· ^^^ ·) x y

/-- Sixteen bytes as a block; a shorter string is filled with zero bytes and a longer one cut, which no rule does. -/
def Block.ofBytes (l : List Byte) : Block :=
  ⟨((l ++ List.replicate 16 0x00).take 16).toArray, by simp⟩

/-- `PKTTYPE` (R25). -/
def State.pktType (s : State) : Byte := s.byteAt .ev 0

/-- `HEAD` (R26). -/
def State.head (s : State) : Half := u16 (s.byteAt .ev 1) (s.byteAt .ev 2)

/-- `TIMESTAMP` (R27). -/
def State.timestamp (s : State) : Word32 :=
  u32 (s.byteAt .ev 3) (s.byteAt .ev 4) (s.byteAt .ev 5) (s.byteAt .ev 6)

/-- `YEAR`, `MONTH`, `DAY`, `HOUR`, `MINUTE`, `SECOND` (R28). -/
def State.suppliedTime (s : State) : ClockReading where
  year := u16 (s.byteAt .ev 7) (s.byteAt .ev 8)
  month := s.byteAt .ev 9
  day := s.byteAt .ev 10
  hour := s.byteAt .ev 11
  minute := s.byteAt .ev 12
  second := s.byteAt .ev 13

/-- `VSCP_CLASS` (R29). -/
def State.vscpClass (s : State) : Half := u16 (s.byteAt .ev 14) (s.byteAt .ev 15)

/-- `VSCP_TYPE` (R29). -/
def State.vscpType (s : State) : Half := u16 (s.byteAt .ev 16) (s.byteAt .ev 17)

/-- `GUID[0..15]` (R30). -/
def State.guid (s : State) : List Byte := s.bytes .ev 18 16

/-- `SIZE` (R31). -/
def State.size (s : State) : Half := u16 (s.byteAt .ev 34) (s.byteAt .ev 35)

/-- The payload `DATA[0..SIZE)` (R32). -/
def State.payload (s : State) : List Byte := s.bytes .ev 36 s.size.toNat

/-- The Frame `FB[0..FRAME_LEN)` (R41). -/
def State.frame (s : State) : List Byte := s.bytes .fb 0 s.frameLen.toNat

/-- The Packet `PB[0..PKT_LEN)` (R42). -/
def State.packet (s : State) : List Byte := s.bytes .pb 0 s.pktLen.toNat

end Sys2Proof.Machine
end

