-- ==== Sys2Proof/Machine/BlockCipher.lean ====
section
/-! DEFINITION. The schemes and the block cipher parameter `BlockEnc` (30_encoding.md R111; 44_block_cipher.md R235,
R237). -/

namespace Sys2Proof.Machine

/-- The scheme that `ENC_KIND` 1, 2 or 3 names (R111). -/
def schemeOfKind (kind : Byte) : Option Scheme :=
  if kind = 1 then some .scheme128
  else if kind = 2 then some .scheme192
  else if kind = 3 then some .scheme256
  else none

/-- The required `KEYLEN` (R111). -/
def schemeKeyLength : Scheme → Nat
  | .scheme128 => 16
  | .scheme192 => 24
  | .scheme256 => 32

/-- The algorithm identifier, byte 0 of the Packet (R111). -/
def schemeId : Scheme → Byte
  | .scheme128 => 1
  | .scheme192 => 2
  | .scheme256 => 3

/-- `BlockEnc(k, key, X)` under a binding: AES with `Nk` key words (R237, R238), or the platform's cipher (R248). -/
def blockEnc (c : CipherBinding) (k : Scheme) (key : List Byte) (x : Block) : Block :=
  match c with
  | .aes => Block.ofBytes (aesEncrypt (schemeKeyLength k / 4) key x.toList)
  | .platform n => Config.platformBlockEnc n k key x

end Sys2Proof.Machine
end

