-- ==== Sys2Proof/Machine/EncryptionWrapper.lean ====
section
/-! DEFINITION. The EncryptionWrapper: ENCRYPT (42_encryption_wrapper.md R190 to R210). -/

namespace Sys2Proof.Machine

/-- `m = FRAME_LEN - 1`, the plaintext length (R190, R208). -/
def State.plainLen (s : State) : Nat := s.frameLen.toNat - 1

/-- `L = ceil16(m)`, the padded length (R198). -/
def State.paddedLen (s : State) : Nat := ceil16 s.plainLen

/-- `PT[0..m) <- FB[1..FRAME_LEN)`, `PT[m..L) <- 0x00`: a padded copy (R198, R199). -/
def State.loadPlain (s : State) : State :=
  s |>.put .pt 0 (s.bytes .fb 1 s.plainLen)
    |>.put .pt s.plainLen (List.replicate (s.paddedLen - s.plainLen) 0x00)

/-- Block `j`: `X = PT[16j..16j+16) xor CHAIN`, `C = BlockEnc(k, KEY[0..klen), X)`, `PB[1+16j..17+16j) <- C`,
`CHAIN <- C` (R202, R203). -/
def State.chainBlock (s : State) (k : Scheme) (j : Nat) : State :=
  let x := Block.ofBytes (xorBytes (s.bytes .pt (16 * j) 16) (s.bytes .chain 0 16))
  let c := blockEnc s.cfg.cipher k (s.bytes .key 0 (schemeKeyLength k)) x
  s |>.put .pb (1 + 16 * j) c.toList
    |>.put .chain 0 c.toList

/-- `n` blocks, the first of number `j` (R202). -/
def State.chainBlocks (s : State) (k : Scheme) : Nat → Nat → State
  | 0, _ => s
  | n + 1, j => State.chainBlocks (s.chainBlock k j) k n (j + 1)

/-- `PKT_LEN <- n`; the bytes beyond are tail (R42). -/
def State.setPktLen (s : State) (n : Nat) : State :=
  { s with pktLen := BitVec.ofNat 16 n }.redrawTails

/-- None: the Packet is the Frame (R196). -/
def State.passThrough (s : State) : State :=
  (s.put .pb 0 s.frame).setPktLen s.frameLen.toNat

/-- `IV <- r.iv`, `IV_HISTORY` grows, `CHAIN <- IV` (R190, R200). -/
def State.loadIv (s : State) (iv : Block) : State :=
  ((s.put .iv 0 iv.toList).recordIv iv).put .chain 0 iv.toList

/-- Steps 4 and 5 once the plaintext and the IV are loaded: chaining, then `algorithmId || ciphertext || IV`
(R202, R204). -/
def State.assemble (s : State) (k : Scheme) : State :=
  let t := s.chainBlocks k (s.paddedLen / 16) 0
  t |>.put .pb 0 [schemeId k]
    |>.put .pb (1 + s.paddedLen) (t.bytes .iv 0 16)
    |>.setPktLen (17 + s.paddedLen)
    |>.emit .encryptionApplied

/-- Steps 2 to 5 with the draw `iv`: the padded copy, the one entropy read, the packet; the internal buffers are
unspecified afterwards (R198 to R204; 10_state.md R44). -/
def State.sealFrame (s : State) (k : Scheme) (iv : Block) : State :=
  ((s.loadPlain.entropyRead.loadIv iv).assemble k).forgetWork

/-- ENCRYPT from step 2 on, with a scheme and a key of its length: padding, the one entropy read, then the packet or
EntropySourceError, after which the internal buffers are unspecified too (R198 to R205; 10_state.md R44). -/
def State.encryptFrame (s : State) (k : Scheme) : State :=
  match s.entropyDraw with
  | none => (s.loadPlain.entropyRead.raise .encrypt .entropySource).forgetWork
  | some iv => s.sealFrame k iv

/-- The tests of ENCRYPT in their order, then the packet (60_exceptions.md R265). -/
def State.checkedEncrypt (s : State) : State :=
  if s.frameLen = 0 then s.raise .encrypt .operand
  else if 3 < s.encKind.toNat then s.raise .encrypt .unsupportedScheme
  else match schemeOfKind s.encKind with
    | none => s.passThrough
    | some k =>
      if s.keyLen.toNat = schemeKeyLength k then s.encryptFrame k
      else s.raise .encrypt .invalidKey

/-- ENCRYPT as an operation on the state, which SEND performs too (R190, R220). -/
def State.performEncrypt (s : State) : State := s.beginCommand.checkedEncrypt

/-- `ENCRYPT` (R190). -/
def execEncrypt (s : State) : Host.Outcome State Fault Refusal := .next s.performEncrypt

end Sys2Proof.Machine
end

