-- ==== Sys2Proof/Machine/Crc.lean ====
section
/-! DEFINITION. The CRC-16 function (41_checksum_engine.md R160, R162) and the three other forms the spec gives of its
byte step: bit-serial (R161), parallel (R163) and by table (R164). The meanings use R162, "the definition". -/

namespace Sys2Proof.Machine

/-- The initial register value (R160). -/
def crcInitial : Half := 0xFFFF

/-- The generator polynomial x^16 + x^12 + x^5 + 1, the x^16 term implied (R160; log 12). -/
def crcPoly : Half := 0x1021

/-- One turn of the loop of R162: shift left, and take the polynomial in when the bit shifted out is 1. -/
def crcShift (c : Half) : Half :=
  if c.getLsbD 15 then (c <<< 1) ^^^ crcPoly else c <<< 1

/-- `n` turns of the loop. -/
def crcShifts : Nat → Half → Half
  | 0, c => c
  | n + 1, c => crcShifts n (crcShift c)

/-- `crc_byte(c, b)` (R162). -/
def crcByte (c : Half) (b : Byte) : Half :=
  crcShifts 8 (c ^^^ (b.setWidth 16 <<< 8))

/-- `crc16(m)` (R160). -/
def crc16 (m : List Byte) : Half := m.foldl crcByte crcInitial

/-- `crc_bit(c, d)` (R161). -/
def crcBit (c : Half) (d : Bool) : Half :=
  if c.getLsbD 15 ^^ d then (c <<< 1) ^^^ crcPoly else c <<< 1

/-- A byte fed most significant bit first (R161). -/
def crcByteSerial (c : Half) (b : Byte) : Half :=
  [7, 6, 5, 4, 3, 2, 1, 0].foldl (fun c i => crcBit c (b.getLsbD i)) c

/-- The sixteen next-state equations of one byte step, bit 15 first (R163). -/
def crcByteParallel (cr : Half) (b : Byte) : Half :=
  let c := fun i => cr.getLsbD i
  let d := fun i => b.getLsbD i
  BitVec.ofBoolListBE
    [ c 15 ^^ c 11 ^^ c 7 ^^ d 7 ^^ d 3,
      c 14 ^^ c 10 ^^ c 6 ^^ d 6 ^^ d 2,
      c 13 ^^ c 9 ^^ c 5 ^^ d 5 ^^ d 1,
      c 15 ^^ c 12 ^^ c 8 ^^ c 4 ^^ d 7 ^^ d 4 ^^ d 0,
      c 14 ^^ c 3 ^^ d 6,
      c 13 ^^ c 2 ^^ d 5,
      c 12 ^^ c 1 ^^ d 4,
      c 15 ^^ c 11 ^^ c 0 ^^ d 7 ^^ d 3,
      c 15 ^^ c 14 ^^ c 10 ^^ d 7 ^^ d 6 ^^ d 2,
      c 14 ^^ c 13 ^^ c 9 ^^ d 6 ^^ d 5 ^^ d 1,
      c 13 ^^ c 12 ^^ c 8 ^^ d 5 ^^ d 4 ^^ d 0,
      c 12 ^^ d 4,
      c 15 ^^ c 11 ^^ d 7 ^^ d 3,
      c 14 ^^ c 10 ^^ d 6 ^^ d 2,
      c 13 ^^ c 9 ^^ d 5 ^^ d 1,
      c 12 ^^ c 8 ^^ d 4 ^^ d 0 ]

end Sys2Proof.Machine
end

