-- ==== Sys2Proof/Machine/ChecksumEngine.lean ====
section
/-! DEFINITION. The ChecksumEngine: CRC_INIT, CRC_UPDATE, CRC_APPEND (41_checksum_engine.md R166 to R175). -/

namespace Sys2Proof.Machine

/-- `CRC <- crc16(FB[a..e))`, then `FB[e..e+2) <- be16(CRC)` and `Emit(ChecksumComputed)`: the tail that CRC_APPEND and
step 10 of BUILD share (R140, R170). -/
def State.appendCrc (s : State) (a e : Nat) : State :=
  let c := crc16 (s.bytes .fb a (e - a))
  (({ s with crc := c }).put .fb e (be16 c)).emit .checksumComputed

/-- `FRAME_LEN <- n`; the bytes beyond are tail (R41, R172). -/
def State.setFrameLen (s : State) (n : Nat) : State :=
  { s with frameLen := BitVec.ofNat 16 n }.redrawTails

/-- The range test of CRC_APPEND, over the natural numbers (R173, R175). -/
def State.crcRangeOk (s : State) : Bool :=
  decide (s.crcStart.toNat ≤ s.crcEnd.toNat) &&
  decide (s.crcEnd.toNat ≤ s.frameLen.toNat) &&
  decide (s.crcEnd.toNat + 2 ≤ fbCap s.cfg)

/-- `CRC_INIT` (R166). -/
def execCrcInit (s : State) : Host.Outcome State Fault Refusal :=
  .next { s.beginCommand with crc := crcInitial }

/-- `CRC_UPDATE` (R167). -/
def execCrcUpdate (s : State) : Host.Outcome State Fault Refusal :=
  .next { s.beginCommand with crc := crcByte s.crc s.crcDin }

/-- `CRC_APPEND` (R170). -/
def execCrcAppend (s : State) : Host.Outcome State Fault Refusal :=
  if s.crcRangeOk then
    .next ((s.beginCommand.appendCrc s.crcStart.toNat s.crcEnd.toNat).setFrameLen (s.crcEnd.toNat + 2))
  else
    .next (s.beginCommand.raise .crcAppend .operand)

end Sys2Proof.Machine
end

