-- ==== Sys2Proof/Machine/FrameBuilder.lean ====
section
/-! DEFINITION. The FrameBuilder: BUILD (40_frame_builder.md R130 to R146). -/

namespace Sys2Proof.Machine

/-- The date/time sentinel: all six fields zero (R136). -/
def State.sentinel (s : State) : Bool :=
  decide (s.suppliedTime = { year := 0, month := 0, day := 0, hour := 0, minute := 0, second := 0 })

/-- The six numbers the frame carries: the clock's under the sentinel, else the supplied ones (R135, R136). -/
def State.eventTime (s : State) : ClockReading :=
  if s.sentinel then s.utcNow else s.suppliedTime

/-- The clock is read exactly once under the sentinel and else not at all (R135, R136). -/
def State.readEventClock (s : State) : State :=
  if s.sentinel then s.clockRead else s

/-- The year as 16-bit big-endian, the rest as single bytes: the date/time block of the frame (R135). -/
def timeBytes (t : ClockReading) : List Byte :=
  be16 t.year ++ [t.month, t.day, t.hour, t.minute, t.second]

/-- Steps 2 to 9: the fields of the frame, each at its offset (R134 to R139). -/
def State.writeFields (s : State) : State :=
  s.readEventClock
    |>.put .fb 0 [s.pktType]
    |>.put .fb 1 (be16 s.head)
    |>.put .fb 3 (be32 s.timestamp)
    |>.put .fb 7 (timeBytes s.eventTime)
    |>.put .fb 14 (be16 s.vscpClass)
    |>.put .fb 16 (be16 s.vscpType)
    |>.put .fb 18 s.guid
    |>.put .fb 34 (be16 s.size)
    |>.put .fb 36 s.payload

/-- BUILD once both preconditions hold (R130, R140, R141, R146). -/
def State.buildFrame (s : State) : State :=
  ((s.writeFields.appendCrc 1 (36 + s.size.toNat)).setFrameLen (38 + s.size.toNat)).emit .frameBuilt

/-- The tests of BUILD in their order, then the frame (R131, R132; 60_exceptions.md R264). -/
def State.checkedBuild (s : State) : State :=
  if s.evKind = 1 then
    if s.size.toNat ≤ s.cfg.maxData then s.buildFrame
    else s.raise .build .dataTooLarge
  else s.raise .build .typeMismatch

/-- BUILD as an operation on the state, which SEND performs too (R130, R220). -/
def State.performBuild (s : State) : State := s.beginCommand.checkedBuild

/-- `BUILD` (R130). -/
def execBuild (s : State) : Host.Outcome State Fault Refusal := .next s.performBuild

end Sys2Proof.Machine
end

