-- ==== Sys2Proof/Machine/Pipeline.lean ====
section
/-! DEFINITION. SEND and the illegal command (43_pipeline.md R220, R225). -/

namespace Sys2Proof.Machine

/-- `SEND`: BUILD, then ENCRYPT where BUILD succeeded; else the packet is withdrawn too (R220). -/
def execSend (s : State) : Host.Outcome State Fault Refusal :=
  let t := s.performBuild
  if t.err ≠ 0 then .next t.withdrawPacket
  else .next t.performEncrypt

/-- A code that names no command: `STATUS <- 0; raise IllegalCommand` (R225). -/
def State.illegalCommand (s : State) : State := s.beginCommand.raise .dispatch .illegalCommand

end Sys2Proof.Machine
end

