-- ==== Sys2Proof/Machine/HostAccess.lean ====
section
/-! DEFINITION. What the host and the platform do: byte reads and writes of the four spaces (20_memory.md R60 to R68),
the `CMD` write that runs a command (43_pipeline.md R224), and reset (70_reset_and_hazards.md R300). -/

namespace Sys2Proof.Machine

/-- `KEY[i]` is at CSR offset `0x10 + i` (20_memory.md R61). -/
def keyOffset : Nat := 0x10

/-- Is the offset one of `KEY[0..31]`? -/
def isKeyOffset (off : Nat) : Bool := decide (keyOffset ≤ off) && decide (off < keyOffset + keySize)

/-- A host read of the CSR space (R61): `CMD` reads 0x00 (R67) and so does an offset beyond the space (R68). -/
def State.readCsr (s : State) (off : Nat) : Byte :=
  match off with
  | 0x00 => 0x00
  | 0x01 => s.status
  | 0x02 => s.evKind
  | 0x03 => s.encKind
  | 0x04 => s.keyLen
  | 0x05 => s.crcDin
  | 0x06 => hi8 s.crc
  | 0x07 => lo8 s.crc
  | 0x08 => hi8 s.crcStart
  | 0x09 => lo8 s.crcStart
  | 0x0A => hi8 s.crcEnd
  | 0x0B => lo8 s.crcEnd
  | 0x0C => hi8 s.frameLen
  | 0x0D => lo8 s.frameLen
  | 0x0E => hi8 s.pktLen
  | 0x0F => lo8 s.pktLen
  | n => if isKeyOffset n then s.byteAt .key (n - keyOffset) else 0x00

/-- A host read of an output buffer of capacity `cap` and valid length `len`: the byte, an unspecified byte beyond the
length (log 7), 0x00 beyond the space (R41, R42, R68). -/
def State.readOutput (s : State) (b : Buffer) (cap len off : Nat) : Byte :=
  if off < len ∧ off < cap then s.byteAt b off
  else if off < cap then Config.tailByte b s.epoch off
  else 0x00

/-- `MemRead(space, off, 1)` (00_scope.md R18; 20_memory.md R60 to R68). -/
def State.hostRead (s : State) (sp : Space) (off : Nat) : Byte :=
  match sp with
  | .csr => s.readCsr off
  | .ev => if off < evSize s.cfg then s.byteAt .ev off else 0x00
  | .fb => s.readOutput .fb (fbCap s.cfg) s.frameLen.toNat off
  | .pb => s.readOutput .pb (pbCap s.cfg) s.pktLen.toNat off

/-- A host write of the CSR space other than to `CMD` (R61): a read-only offset or one beyond the space ignores it
(R67, R68), and a read/write register stores the byte exactly (R67). -/
def State.writeCsr (s : State) (off : Nat) (v : Byte) : State :=
  match off with
  | 0x02 => { s with evKind := v }
  | 0x03 => { s with encKind := v }
  | 0x04 => { s with keyLen := v }
  | 0x05 => { s with crcDin := v }
  | 0x08 => { s with crcStart := u16 v (lo8 s.crcStart) }
  | 0x09 => { s with crcStart := u16 (hi8 s.crcStart) v }
  | 0x0A => { s with crcEnd := u16 v (lo8 s.crcEnd) }
  | 0x0B => { s with crcEnd := u16 (hi8 s.crcEnd) v }
  | n => if isKeyOffset n then s.put .key (n - keyOffset) [v] else s

/-- `MemWrite(space, off, 1, v)` other than to `CMD`: FB and PB are read only (R60, R67). -/
def State.hostWrite (s : State) (sp : Space) (off : Nat) (v : Byte) : State :=
  match sp with
  | .csr => s.writeCsr off v
  | .ev => if off < evSize s.cfg then s.put .ev off [v] else s
  | .fb => s
  | .pb => s

/-- A write of `code` to `CMD`: the command of that code, or the illegal-command rule (43_pipeline.md R224, R225). -/
def runCommand (code : Byte) (s : State) : Host.Outcome State Fault Refusal :=
  match decode code with
  | .ok i => exec i s
  | .error _ => .next s.illegalCommand

/-- Reset (70_reset_and_hazards.md R300): the state of 10_state.md R50, with a new draw for every buffer byte. What is
not the CORE's stays: parameters, port answers, the host's actions and answers (log 10). -/
def State.resetCore (s : State) : State :=
  { State.reset with
    cfg := s.cfg
    clockPort := s.clockPort
    clockReads := s.clockReads
    entropyPort := s.entropyPort
    entropyReads := s.entropyReads
    inputs := s.inputs
    answers := s.answers
    epoch := s.epoch + 1
    resets := s.resets + 1 }

/-- One action of the host or the platform. -/
def perform (a : HostAction) (s : State) : Host.Outcome State Fault Refusal :=
  match a with
  | .write sp off v =>
    if sp = .csr ∧ off = cmdOffset then runCommand v s else .next (s.hostWrite sp off v)
  | .read sp off => .next { s with answers := s.answers ++ [s.hostRead sp off] }
  | .reset => .next s.resetCore

/-- The next action and the state without it, or nothing: the CORE is idle until the host acts (10_state.md R21). -/
def State.nextAction (s : State) : Option (HostAction × State) :=
  match s.inputs with
  | [] => none
  | a :: rest => some (a, { s with inputs := rest })

/-- A host action put before all others. -/
def State.before (s : State) (a : HostAction) : State := { s with inputs := a :: s.inputs }

end Sys2Proof.Machine
end

