-- ==== Sys2Proof/Machine/Step.lean ====
section
/-! DEFINITION. The step: one host access or one whole command (92_eei_decisions.md D1; 20_memory.md R71). -/

namespace Sys2Proof.Machine

/-- One step: the next action of the host or the platform, or nothing when there is none (the CORE is idle). -/
def step (s : State) : Host.Outcome State Fault Refusal :=
  match s.nextAction with
  | none => .next s
  | some (a, t) => perform a t

/-- The state whose next action is the `CMD` write of the table word: the only way a command runs
(43_pipeline.md R224; log 1). -/
def State.withFetchWord (s : State) (nbits w : Nat) : State :=
  s.before (.write .csr cmdOffset (tableByte nbits w))

end Sys2Proof.Machine
end

