-- ==== Sys2Proof/Machine/CrcTable.lean ====
section
/-! DEFINITION. The table form of the CRC byte step (41_checksum_engine.md R164): "a convenience; rule R162 is the
definition". Each row of the spec's listing is one number of eight 16-bit entries, the first entry highest. -/

namespace Sys2Proof.Machine

/-- Rows 0 to 15 of `T` (R164). -/
def crcTableLow : List Nat :=
  [ 0x0000_1021_2042_3063_4084_50A5_60C6_70E7,
    0x8108_9129_A14A_B16B_C18C_D1AD_E1CE_F1EF,
    0x1231_0210_3273_2252_52B5_4294_72F7_62D6,
    0x9339_8318_B37B_A35A_D3BD_C39C_F3FF_E3DE,
    0x2462_3443_0420_1401_64E6_74C7_44A4_5485,
    0xA56A_B54B_8528_9509_E5EE_F5CF_C5AC_D58D,
    0x3653_2672_1611_0630_76D7_66F6_5695_46B4,
    0xB75B_A77A_9719_8738_F7DF_E7FE_D79D_C7BC,
    0x48C4_58E5_6886_78A7_0840_1861_2802_3823,
    0xC9CC_D9ED_E98E_F9AF_8948_9969_A90A_B92B,
    0x5AF5_4AD4_7AB7_6A96_1A71_0A50_3A33_2A12,
    0xDBFD_CBDC_FBBF_EB9E_9B79_8B58_BB3B_AB1A,
    0x6CA6_7C87_4CE4_5CC5_2C22_3C03_0C60_1C41,
    0xEDAE_FD8F_CDEC_DDCD_AD2A_BD0B_8D68_9D49,
    0x7E97_6EB6_5ED5_4EF4_3E13_2E32_1E51_0E70,
    0xFF9F_EFBE_DFDD_CFFC_BF1B_AF3A_9F59_8F78 ]

/-- Rows 16 to 31 of `T` (R164). -/
def crcTableHigh : List Nat :=
  [ 0x9188_81A9_B1CA_A1EB_D10C_C12D_F14E_E16F,
    0x1080_00A1_30C2_20E3_5004_4025_7046_6067,
    0x83B9_9398_A3FB_B3DA_C33D_D31C_E37F_F35E,
    0x02B1_1290_22F3_32D2_4235_5214_6277_7256,
    0xB5EA_A5CB_95A8_8589_F56E_E54F_D52C_C50D,
    0x34E2_24C3_14A0_0481_7466_6447_5424_4405,
    0xA7DB_B7FA_8799_97B8_E75F_F77E_C71D_D73C,
    0x26D3_36F2_0691_16B0_6657_7676_4615_5634,
    0xD94C_C96D_F90E_E92F_99C8_89E9_B98A_A9AB,
    0x5844_4865_7806_6827_18C0_08E1_3882_28A3,
    0xCB7D_DB5C_EB3F_FB1E_8BF9_9BD8_ABBB_BB9A,
    0x4A75_5A54_6A37_7A16_0AF1_1AD0_2AB3_3A92,
    0xFD2E_ED0F_DD6C_CD4D_BDAA_AD8B_9DE8_8DC9,
    0x7C26_6C07_5C64_4C45_3CA2_2C83_1CE0_0CC1,
    0xEF1F_FF3E_CF5D_DF7C_AF9B_BFBA_8FD9_9FF8,
    0x6E17_7E36_4E55_5E74_2E93_3EB2_0ED1_1EF0 ]

/-- `T[i]`: entry `i mod 8` of row `i div 8`. -/
def crcTable (i : Nat) : Half :=
  BitVec.ofNat 16 (((crcTableLow ++ crcTableHigh).getD (i / 8) 0) >>> (16 * (7 - i % 8)))

/-- `crc_byte` by table: `((c << 8) mod 2^16) xor T[(c >> 8) xor b]` (R164). -/
def crcByteTable (c : Half) (b : Byte) : Half :=
  (c <<< 8) ^^^ crcTable ((c >>> 8).setWidth 8 ^^^ b).toNat

end Sys2Proof.Machine
end

