-- ==== Sys2Proof/Safety.lean ====
section
/-! DEFINITION. The terms the statements use: the invariant of the CORE, the named properties of the ports and of the
block cipher, and the wire formats and the chaining mode written as functions on byte strings, independently of the
commands. -/

namespace Sys2Proof.Machine

/-- What holds after reset and after every command and host access (10_state.md R51), and what keeps it so: parameters
in bounds, buffers in canonical form and within their sizes, every byte of the Frame and of the Packet written, nothing
specified of the internal buffers between commands (R44), no repeat in IV_HISTORY (R48). -/
structure State.Inv (s : State) : Prop where
  params     : s.cfg.wellFormed = true
  reserved   : s.statusReserved = 0
  errCode    : s.err.toNat ≤ 7
  frameLen   : s.frameLen = 0 ∨ 2 ≤ s.frameLen.toNat ∧ s.frameLen.toNat ≤ fbCap s.cfg
  pktLen     : s.pktLen = 0 ∨ 2 ≤ s.pktLen.toNat ∧ s.pktLen.toNat ≤ pbCap s.cfg
  keyForm    : s.key.wf = true ∧ s.key.within keySize = true
  evForm     : s.ev.wf = true ∧ s.ev.within (evSize s.cfg) = true
  fbForm     : s.fb.wf = true ∧ s.fb.within (fbCap s.cfg) = true
  pbForm     : s.pb.wf = true ∧ s.pb.within (pbCap s.cfg) = true
  internal   : s.pt = [] ∧ s.iv = [] ∧ s.chain = []
  frameBytes : ∀ a, a < s.frameLen.toNat → (s.fb.lookup a).isSome = true
  pktBytes   : ∀ a, a < s.pktLen.toNat → (s.pb.lookup a).isSome = true
  ivs        : s.ivHistory.Nodup

/-- The named property `IvFresh` of the port's next answer (10_state.md R48): an IV it returns was never returned
before. -/
def State.ivFresh (s : State) : Prop := ∀ iv, s.entropyDraw = some iv → iv ∉ s.ivHistory

/-- The named property `ClockFourDigitYear` of the port's next answer (10_state.md R47). -/
def State.clockFourDigitYear (s : State) : Prop := s.utcNow.fourDigitYear = true

/-- The named property `BlockEncPermutes` of a binding (44_block_cipher.md R236): for every scheme and every key of its
length, a bijection on blocks. -/
def blockEncPermutes (c : CipherBinding) : Prop :=
  ∀ (k : Scheme) (key : List Byte), key.length = schemeKeyLength k → Function.Bijective (blockEnc c k key)

/-- Two states whose event register files hold the same bytes from offset `a` up to `b`. -/
def State.sameEvent (s t : State) (a b : Nat) : Prop := ∀ x, a ≤ x → x < b → s.byteAt .ev x = t.byteAt .ev x

/-- Every buffer byte of `t` outside `FB[lo..hi)` and `PB[lo'..hi')` is as in `s`; the internal PT, IV and CHAIN, of
which the spec fixes nothing after a command, apart (10_state.md R44). -/
def State.sameBytesBut (s t : State) (fbLo fbHi pbLo pbHi : Nat) : Prop :=
  (∀ a, t.byteAt .key a = s.byteAt .key a) ∧
  (∀ a, t.byteAt .ev a = s.byteAt .ev a) ∧
  (∀ a, ¬ (fbLo ≤ a ∧ a < fbHi) → t.byteAt .fb a = s.byteAt .fb a) ∧
  (∀ a, ¬ (pbLo ≤ a ∧ a < pbHi) → t.byteAt .pb a = s.byteAt .pb a)

/-- The input registers, the parameters and the host's side of the interface are the same in both states: what no
command writes (10_state.md R24, R52). -/
def State.sameInputs (s t : State) : Prop :=
  t.cfg = s.cfg ∧ t.evKind = s.evKind ∧ t.encKind = s.encKind ∧ t.keyLen = s.keyLen ∧ t.crcDin = s.crcDin ∧
  t.crcStart = s.crcStart ∧ t.crcEnd = s.crcEnd ∧ t.key = s.key ∧ t.ev = s.ev ∧
  t.inputs = s.inputs ∧ t.answers = s.answers ∧ t.resets = s.resets

/-- The clock port was not read (60_exceptions.md R285). -/
def State.sameClock (s t : State) : Prop := t.clockPort = s.clockPort ∧ t.clockReads = s.clockReads

/-- The entropy port was not read, and nothing of the EncryptionWrapper's hidden state moved (10_state.md R44, R48). -/
def State.sameEntropy (s t : State) : Prop :=
  t.entropyPort = s.entropyPort ∧ t.entropyReads = s.entropyReads ∧ t.ivHistory = s.ivHistory ∧
  t.pt = s.pt ∧ t.iv = s.iv ∧ t.chain = s.chain

/-- The entropy port was read exactly once (42_encryption_wrapper.md R200). -/
def State.entropyReadOnce (s t : State) : Prop :=
  t.entropyPort = s.entropyPort.tail ∧ t.entropyReads = s.entropyReads + 1

/-- BUILD's two preconditions hold (40_frame_builder.md R131, R132). -/
def State.buildable (s : State) : Prop := s.evKind = 1 ∧ s.size.toNat ≤ s.cfg.maxData

/-- The scheme and the key are accepted: `ENC_KIND` names scheme `k` and `KEYLEN` is its key length
(30_encoding.md R111; 42_encryption_wrapper.md R192, R197). -/
def State.keyedFor (s : State) (k : Scheme) : Prop :=
  schemeOfKind s.encKind = some k ∧ s.keyLen.toNat = schemeKeyLength k

/-- The locations a host write changes, `CMD` apart (20_memory.md R60, R61, R67, R68). -/
def hostWritable (p : Params) (sp : Space) (off : Nat) : Bool :=
  match sp with
  | .csr => off ∈ [0x02, 0x03, 0x04, 0x05, 0x08, 0x09, 0x0A, 0x0B] || (decide (0x10 ≤ off) && decide (off ≤ 0x2F))
  | .ev => decide (off < evSize p)
  | .fb => false
  | .pb => false

/-- The Frame up to its CRC, field after field in the order of the wire layout table (30_encoding.md R100), with the
date/time block of R135 and R136. -/
def State.frameImage (s : State) : List Byte :=
  [s.pktType] ++ be16 s.head ++ be32 s.timestamp ++ timeBytes s.eventTime ++ be16 s.vscpClass ++ be16 s.vscpType ++
    s.guid ++ be16 s.size ++ s.payload

/-- The CRC of the Frame: over everything after the packet-type byte (30_encoding.md R103). -/
def State.frameCrc (s : State) : Half := crc16 (s.frameImage.drop 1)

/-- The whole Frame: the CRC most significant byte first after the payload (30_encoding.md R100). -/
def State.wireFrame (s : State) : List Byte := s.frameImage ++ be16 s.frameCrc

/-- The bytewise exclusive or of two blocks. -/
def xorBlock (x y : Block) : Block := Block.ofBytes (xorBytes x.toList y.toList)

/-- Cipher block chaining over whole blocks: `C_j = E(P_j xor C_{j-1})` (42_encryption_wrapper.md R202). -/
def cbcEncrypt (enc : Block → Block) : Block → List Block → List Block
  | _, [] => []
  | prev, p :: ps => enc (xorBlock p prev) :: cbcEncrypt enc (enc (xorBlock p prev)) ps

/-- The test oracle outside the CORE: `P_j = D(C_j) xor C_{j-1}` (95_test_vectors.md S4). -/
def cbcDecrypt (dec : Block → Block) : Block → List Block → List Block
  | _, [] => []
  | prev, c :: cs => xorBlock (dec c) prev :: cbcDecrypt dec c cs

/-- The first `n` blocks of a byte string. -/
def splitBlocks : Nat → List Byte → List Block
  | 0, _ => []
  | n + 1, l => Block.ofBytes (l.take 16) :: splitBlocks n (l.drop 16)

/-- Blocks as one byte string. -/
def joinBlocks (bs : List Block) : List Byte := bs.flatMap (fun b => b.toList)

/-- The padded plaintext of a frame: the frame after its first byte, then the zero bytes that make its length a
multiple of 16 (42_encryption_wrapper.md R198). -/
def paddedPlain (frame : List Byte) : List Byte :=
  frame.drop 1 ++ List.replicate (ceil16 (frame.length - 1) - (frame.length - 1)) 0x00

/-- Number of blocks of the padded plaintext. -/
def blockCount (frame : List Byte) : Nat := ceil16 (frame.length - 1) / 16

/-- The ciphertext of a frame (R202, R203). -/
def cipherBlocks (c : CipherBinding) (k : Scheme) (key : List Byte) (iv : Block) (frame : List Byte) : List Block :=
  cbcEncrypt (blockEnc c k key) iv (splitBlocks (blockCount frame) (paddedPlain frame))

/-- The encrypted Packet `algorithmId || ciphertext || IV` (30_encoding.md R109; 42_encryption_wrapper.md R204). -/
def wirePacket (c : CipherBinding) (k : Scheme) (key : List Byte) (iv : Block) (frame : List Byte) : List Byte :=
  schemeId k :: (joinBlocks (cipherBlocks c k key iv frame) ++ iv.toList)

/-- The key a scheme uses: `KEY[0..klen)` (R203). -/
def State.keyFor (s : State) (k : Scheme) : List Byte := s.bytes .key 0 (schemeKeyLength k)

end Sys2Proof.Machine
end

