-- ==== Sys2Proof/Certificates/Slice0/Obligations.lean ====
section
/-! DEFINITION. The statements for the provers. Each docstring names the rule it formalises. Conclusions name a next
state; `epoch := e` with some `e` leaves open the model's own count of draws of unspecified bytes (log 7). -/

open Sys2Proof Sys2Proof.Machine

/-! ### Encoding and dispatch -/

/-- The words of 30_encoding.md R92, written out bit by bit, decode to the commands they stand for. -/
def Obligations.CommandWordsDecode : Prop :=
  decode 0b00000001#8 = .ok .build ∧ decode 0b00000010#8 = .ok .crcAppend ∧
  decode 0b00000011#8 = .ok .encrypt ∧ decode 0b00000100#8 = .ok .send ∧
  decode 0b00010000#8 = .ok .crcInit ∧ decode 0b00010001#8 = .ok .crcUpdate

/-- Every well-formed command is read back from its code, and from no other code (R90, R92). -/
def Obligations.DecodeInvertsEncode : Prop :=
  ∀ (i : Instr) (c : Byte), i.wellFormed = true → (decode c = .ok i ↔ c = encode i)

/-- A code of R93's list written to `CMD` sets `STATUS` to 7 and changes nothing else (R93, 43_pipeline.md R225); the
host's list of actions loses the one performed (log 1). -/
def Obligations.IllegalCodeOnlySetsStatus : Prop :=
  ∀ (s : State) (c : Byte) (rest : List HostAction),
    (c.toNat = 0x00 ∨ (0x05 ≤ c.toNat ∧ c.toNat ≤ 0x0F) ∨ 0x12 ≤ c.toNat) →
    s.inputs = .write .csr 0x00 c :: rest →
    step s = .next { s with inputs := rest, status := 0x07 }

/-- The `CMD` write of a byte that decodes to a command runs exactly that command (43_pipeline.md R224; that host
actions stand in a list is the model's form, log 1). -/
def Obligations.StepRunsTheDecodedCommand : Prop :=
  ∀ (s : State) (c : Byte) (i : Instr) (rest : List HostAction),
    s.inputs = .write .csr 0x00 c :: rest → decode c = .ok i →
    step s = exec i { s with inputs := rest }

/-- With no host action to come the CORE stays as it is (10_state.md R21; log 1). -/
def Obligations.IdleWithoutHostAction : Prop :=
  ∀ s : State, s.inputs = [] → step s = .next s

/-! ### Host access and reset -/

/-- A read never has a side effect and is idempotent (20_memory.md R67): whatever the host does next, a read step answers
the byte its location reads as and leaves all but the host's own record (log 2) as it was; the same read once more
answers the same byte. -/
def Obligations.HostReadsAreIdempotent : Prop :=
  (∀ (s : State) (sp : Space) (off : Nat) (rest : List HostAction),
    s.inputs = .read sp off :: rest →
    step s = .next { s with inputs := rest, answers := s.answers ++ [s.hostRead sp off] }) ∧
  (∀ (s : State) (sp : Space) (off : Nat) (rest : List HostAction),
    s.inputs = .read sp off :: .read sp off :: rest →
    ∃ t, step s = .next t ∧ t.hostRead sp off = s.hostRead sp off ∧
      step t = .next
        { s with inputs := rest, answers := s.answers ++ [s.hostRead sp off, s.hostRead sp off] })

/-- What each location reads as (20_memory.md R60 to R63, R65, R67, R68). -/
def Obligations.HostReadMap : Prop :=
  ∀ s : State,
    s.hostRead .csr 0x00 = 0x00 ∧ s.hostRead .csr 0x01 = s.status ∧ s.hostRead .csr 0x02 = s.evKind ∧
    s.hostRead .csr 0x03 = s.encKind ∧ s.hostRead .csr 0x04 = s.keyLen ∧ s.hostRead .csr 0x05 = s.crcDin ∧
    s.hostRead .csr 0x06 ++ s.hostRead .csr 0x07 = s.crc ∧
    s.hostRead .csr 0x08 ++ s.hostRead .csr 0x09 = s.crcStart ∧
    s.hostRead .csr 0x0A ++ s.hostRead .csr 0x0B = s.crcEnd ∧
    s.hostRead .csr 0x0C ++ s.hostRead .csr 0x0D = s.frameLen ∧
    s.hostRead .csr 0x0E ++ s.hostRead .csr 0x0F = s.pktLen ∧
    (∀ i, i < 32 → s.hostRead .csr (0x10 + i) = s.byteAt .key i) ∧
    (∀ off, 0x30 ≤ off → s.hostRead .csr off = 0x00) ∧
    (∀ off, off < 36 + s.cfg.maxData → s.hostRead .ev off = s.byteAt .ev off) ∧
    (∀ off, 36 + s.cfg.maxData ≤ off → s.hostRead .ev off = 0x00) ∧
    (∀ off, off < s.frameLen.toNat → off < fbCap s.cfg → s.hostRead .fb off = s.byteAt .fb off) ∧
    (∀ off, fbCap s.cfg ≤ off → s.hostRead .fb off = 0x00) ∧
    (∀ off, off < s.pktLen.toNat → off < pbCap s.cfg → s.hostRead .pb off = s.byteAt .pb off) ∧
    (∀ off, pbCap s.cfg ≤ off → s.hostRead .pb off = 0x00)

/-- A write to a read/write location stores the byte exactly; a write to a read-only or out-of-range location is
ignored; every other location of the four spaces reads as before, and no log or port moves (R64, R67, R68). -/
def Obligations.HostWriteSetsOneLocation : Prop :=
  ∀ (s : State) (sp : Space) (off : Nat) (v : Byte) (rest : List HostAction),
    ¬ (sp = .csr ∧ off = 0x00) → s.inputs = .write sp off v :: rest →
    ∃ t, step s = .next t ∧ t.inputs = rest ∧
      (∀ sp' off', t.hostRead sp' off' =
        if sp' = sp ∧ off' = off ∧ hostWritable s.cfg sp off = true then v else s.hostRead sp' off') ∧
      t.cfg = s.cfg ∧ t.answers = s.answers ∧ t.obs = s.obs ∧ s.sameClock t ∧ s.sameEntropy t

/-- A write to a read-only or out-of-range location: no state changes and no error is reported (R67, R68). -/
def Obligations.OtherHostWritesAreIgnored : Prop :=
  ∀ (s : State) (sp : Space) (off : Nat) (v : Byte) (rest : List HostAction),
    ¬ (sp = .csr ∧ off = 0x00) → hostWritable s.cfg sp off = false → s.inputs = .write sp off v :: rest →
    step s = .next { s with inputs := rest }

/-- Reset puts the state of 10_state.md R50, every buffer byte taking a new unspecified value (70_reset R300; that
`Config.unwritten` carries it is log 6). It leaves what is not the CORE's: the parameters, the ports' answers and the
host's record (the model's choice, log 10). -/
def Obligations.ResetGivesTheListedValues : Prop :=
  ∀ (s : State) (rest : List HostAction), s.inputs = .reset :: rest →
    ∃ t, step s = .next t ∧ t.inputs = rest ∧
      t.status = 0x00 ∧ t.evKind = 0x00 ∧ t.encKind = 0x00 ∧ t.keyLen = 0x00 ∧ t.crc = 0xFFFF ∧
      t.crcDin = 0x00 ∧ t.crcStart = 0x0000 ∧ t.crcEnd = 0x0000 ∧ t.frameLen = 0x0000 ∧ t.pktLen = 0x0000 ∧
      t.obs = [] ∧ t.ivHistory = [] ∧ t.resets = s.resets + 1 ∧
      (∀ b a, t.byteAt b a = Config.unwritten b t.resets a) ∧
      t.cfg = s.cfg ∧ s.sameClock t ∧ t.entropyPort = s.entropyPort ∧ t.entropyReads = s.entropyReads ∧
      t.answers = s.answers

/-! ### The CRC -/

/-- The byte form is eight steps of the bit-serial form (41_checksum_engine.md R161, R162). -/
def Obligations.CrcByteIsEightBitSteps : Prop :=
  ∀ (c : Half) (b : Byte), crcByte c b = crcByteSerial c b

/-- The sixteen next-state equations give the byte step (R163). -/
def Obligations.CrcParallelEquations : Prop :=
  ∀ (c : Half) (b : Byte), crcByte c b = crcByteParallel c b

/-- The table form gives the byte step, and its entries are `crc_byte(0, i)` (R164). -/
def Obligations.CrcTableForm : Prop :=
  (∀ (c : Half) (b : Byte), crcByte c b = crcByteTable c b) ∧
  ∀ b : Byte, crcTable b.toNat = crcByte 0x0000 b

/-- A CRC appended to what it covers drives the CRC to zero (R165). -/
def Obligations.CrcResidueIsZero : Prop :=
  ∀ m : List Byte, crc16 (m ++ be16 (crc16 m)) = 0x0000

/-- Changing any one byte of a message always changes its CRC (R165, the stronger form). -/
def Obligations.CrcDetectsAnyByteChange : Prop :=
  ∀ (m n : List Byte) (x y : Byte), x ≠ y → crc16 (m ++ x :: n) ≠ crc16 (m ++ y :: n)

/-- CRC_INIT, code 0x10, sets the CRC register to 0xFFFF and STATUS to 0, and touches nothing else (R166). -/
def Obligations.CrcInitSetsTheInitialValue : Prop :=
  decode 0x10 = .ok .crcInit ∧ ∀ s : State, exec .crcInit s = .next { s with status := 0x00, crc := 0xFFFF }

/-- CRC_UPDATE, code 0x11, feeds CRC_DIN to the CRC register, STATUS to 0, and touches nothing else (R167). -/
def Obligations.CrcUpdateFeedsOneByte : Prop :=
  decode 0x11 = .ok .crcUpdate ∧ ∀ s : State, exec .crcUpdate s = .next { s with status := 0x00, crc := crcByte s.crc s.crcDin }

/-- Streaming a message byte by byte through CRC_DIN leaves its CRC (R168), here with no other access between. -/
def Obligations.StreamedCrcIsTheCrcOfTheMessage : Prop :=
  ∀ (s : State) (m : List Byte) (rest : List HostAction),
    s.inputs = .write .csr 0x00 0x10 ::
      (m.flatMap (fun b => [.write .csr 0x05 b, .write .csr 0x00 0x11]) ++ rest) →
    ∃ t, Sys2Proof.core.run (1 + 2 * m.length) s = .next t ∧
      t = { s with status := 0x00, crc := crc16 m, crcDin := (s.crcDin :: m).getLast (by simp), inputs := rest }

/-- CRC_APPEND over an accepted range: the CRC of `FB[s..e)` in the register and, high byte first, at `e`; the frame
ends after it; every other byte and register as before (R170 to R172). -/
def Obligations.CrcAppendWritesAfterTheRange : Prop :=
  ∀ s : State, s.cfg.wellFormed = true →
    s.crcStart.toNat ≤ s.crcEnd.toNat → s.crcEnd.toNat ≤ s.frameLen.toNat → s.crcEnd.toNat + 2 ≤ fbCap s.cfg →
    ∃ t, exec .crcAppend s = .next t ∧ t.status = 0x00 ∧
      t.crc = crc16 (s.bytes .fb s.crcStart.toNat (s.crcEnd.toNat - s.crcStart.toNat)) ∧
      t.byteAt .fb s.crcEnd.toNat = hi8 t.crc ∧ t.byteAt .fb (s.crcEnd.toNat + 1) = lo8 t.crc ∧
      t.frameLen.toNat = s.crcEnd.toNat + 2 ∧ t.obs = s.obs ++ [.checksumComputed] ∧
      s.sameBytesBut t s.crcEnd.toNat (s.crcEnd.toNat + 2) 0 0 ∧ s.sameInputs t ∧
      t.pktLen = s.pktLen ∧ s.sameClock t ∧ s.sameEntropy t

/-- CRC_APPEND over a reversed range, one that leaves the frame, or one whose CRC does not fit: OperandError and
nothing else changes (R173, R175). -/
def Obligations.CrcAppendRefusesBadRanges : Prop :=
  ∀ s : State,
    (s.crcEnd.toNat < s.crcStart.toNat ∨ s.frameLen.toNat < s.crcEnd.toNat ∨
      fbCap s.cfg < s.crcEnd.toNat + 2) →
    exec .crcAppend s = .next { s with status := 0x06 }

/-- CRC_APPEND over the covered range of a frame BUILD made recomputes the same CRC into the same place
(R174, 40_frame_builder.md R140). -/
def Obligations.CrcAppendAgreesWithBuild : Prop :=
  ∀ s t : State, s.cfg.wellFormed = true → s.buildable → exec .build s = .next t →
    ∃ u, exec .crcAppend { t with crcStart := 1, crcEnd := BitVec.ofNat 16 (36 + s.size.toNat) } = .next u ∧
      u.status = 0x00 ∧ u.frame = t.frame ∧ u.crc = t.crc ∧ u.frameLen = t.frameLen

/-! ### BUILD -/

/-- BUILD of an extended event that fits makes exactly the wire frame, in the wire layout's order
(40_frame_builder.md R134, R137 to R141, R146). -/
def Obligations.BuildMakesTheWireFrame : Prop :=
  ∀ s : State, s.cfg.wellFormed = true → s.buildable →
    ∃ t, exec .build s = .next t ∧ t.status = 0x00 ∧ t.frame = s.wireFrame ∧
      t.frameLen.toNat = 38 + s.size.toNat ∧ t.crc = s.frameCrc ∧
      t.obs = s.obs ++ [.checksumComputed, .frameBuilt]

/-- Each field of a built frame stands at the offset of the wire layout table (30_encoding.md R100, R103). -/
def Obligations.BuiltFrameFieldOffsets : Prop :=
  ∀ s : State, s.cfg.wellFormed = true → s.buildable →
    ∃ t, exec .build s = .next t ∧
      t.byteAt .fb 0 = s.pktType ∧ t.bytes .fb 1 2 = be16 s.head ∧ t.bytes .fb 3 4 = be32 s.timestamp ∧
      t.bytes .fb 7 2 = be16 s.eventTime.year ∧ t.byteAt .fb 9 = s.eventTime.month ∧
      t.byteAt .fb 10 = s.eventTime.day ∧ t.byteAt .fb 11 = s.eventTime.hour ∧
      t.byteAt .fb 12 = s.eventTime.minute ∧ t.byteAt .fb 13 = s.eventTime.second ∧
      t.bytes .fb 14 2 = be16 s.vscpClass ∧ t.bytes .fb 16 2 = be16 s.vscpType ∧
      (∀ i, i < 16 → t.byteAt .fb (18 + i) = s.byteAt .ev (18 + i)) ∧
      t.bytes .fb 34 2 = be16 s.size ∧
      (∀ i, i < s.size.toNat → t.byteAt .fb (36 + i) = s.byteAt .ev (36 + i)) ∧
      t.bytes .fb (36 + s.size.toNat) 2 = be16 (crc16 (t.bytes .fb 1 (35 + s.size.toNat)))

/-- The frame of a successful BUILD: it changes STATUS, CRC, FRAME_LEN, OBS, the clock port and `FB[0..38+SIZE)`,
nothing else (R130 "Not touched"). -/
def Obligations.BuildTouchesOnlyItsOutputs : Prop :=
  ∀ s : State, s.cfg.wellFormed = true → s.buildable →
    ∃ t, exec .build s = .next t ∧ s.sameBytesBut t 0 (38 + s.size.toNat) 0 0 ∧ s.sameInputs t ∧
      t.pktLen = s.pktLen ∧ s.sameEntropy t

/-- The date/time block: the six registers verbatim and no clock read unless all are zero; under the sentinel the
clock's answer, one clock read, EV unchanged, and a block that is not all zero given `ClockFourDigitYear`
(R135, R136). -/
def Obligations.BuildDateTimeBlock : Prop :=
  ∀ s : State, s.cfg.wellFormed = true → s.buildable →
    ∃ t, exec .build s = .next t ∧
      ((∃ x, 7 ≤ x ∧ x < 14 ∧ s.byteAt .ev x ≠ 0x00) →
        t.bytes .fb 7 7 = s.bytes .ev 7 7 ∧ s.sameClock t) ∧
      ((∀ x, 7 ≤ x → x < 14 → s.byteAt .ev x = 0x00) →
        t.bytes .fb 7 7 = be16 s.utcNow.year ++
          [s.utcNow.month, s.utcNow.day, s.utcNow.hour, s.utcNow.minute, s.utcNow.second] ∧
        t.clockReads = s.clockReads + 1 ∧ t.clockPort = s.clockPort.tail ∧ t.ev = s.ev ∧
        (s.clockFourDigitYear → ∃ x, 7 ≤ x ∧ x < 14 ∧ t.byteAt .fb x ≠ 0x00))

/-- BUILD's two refusals in their order, each with all its effects (R131, R132, R143; 60_exceptions.md R264). -/
def Obligations.BuildRefusalsInOrder : Prop :=
  (∀ s : State, s.evKind ≠ 1 →
    ∃ e, exec .build s = .next { s with status := 0x01, frameLen := 0x0000, epoch := e }) ∧
  (∀ s : State, s.evKind = 1 → s.cfg.maxData < s.size.toNat →
    ∃ e, exec .build s = .next { s with status := 0x02, frameLen := 0x0000, epoch := e })

/-- BUILD is a function of the event and, under the sentinel, the clock reading: two states that agree on those get the
same frame, whatever FB and every other register held before (R142). -/
def Obligations.BuildDependsOnTheEventAlone : Prop :=
  ∀ s s' t t' : State, s.cfg.wellFormed = true → s'.cfg.wellFormed = true → s.buildable → s'.buildable →
    s.sameEvent s' 0 (36 + s.size.toNat) →
    ((∀ x, 7 ≤ x → x < 14 → s.byteAt .ev x = 0x00) → s.utcNow = s'.utcNow) →
    exec .build s = .next t → exec .build s' = .next t' →
    t.frame = t'.frame ∧ t.frameLen = t'.frameLen ∧ t.crc = t'.crc

/-- The packet-type byte does not change the CRC of the frame (R144). -/
def Obligations.PacketTypeIsOutsideTheCrc : Prop :=
  ∀ s s' t t' : State, s.cfg.wellFormed = true → s'.cfg.wellFormed = true → s.buildable → s'.buildable →
    s.sameEvent s' 1 (36 + s.size.toNat) →
    ((∀ x, 7 ≤ x → x < 14 → s.byteAt .ev x = 0x00) → s.utcNow = s'.utcNow) →
    exec .build s = .next t → exec .build s' = .next t' →
    t.crc = t'.crc ∧ t.frame.drop 1 = t'.frame.drop 1

/-- For any valid Frame the CRC over all of it after the packet-type byte is zero (30_encoding.md R104). -/
def Obligations.BuiltFrameHasZeroResidue : Prop :=
  ∀ s : State, s.cfg.wellFormed = true → s.buildable →
    ∃ t, exec .build s = .next t ∧ crc16 (t.frame.drop 1) = 0x0000

/-! ### ENCRYPT -/

/-- The schemes, their key lengths and identifiers (30_encoding.md R111). -/
def Obligations.SchemeTable : Prop :=
  (∀ (kind : Byte) (k : Scheme), schemeOfKind kind = some k ↔
    (kind = 1 ∧ k = .scheme128) ∨ (kind = 2 ∧ k = .scheme192) ∨ (kind = 3 ∧ k = .scheme256)) ∧
  schemeKeyLength .scheme128 = 16 ∧ schemeKeyLength .scheme192 = 24 ∧ schemeKeyLength .scheme256 = 32 ∧
  (∀ (kind : Byte) (k : Scheme), schemeOfKind kind = some k → schemeId k = kind)

/-- Under None the Packet is the Frame; nothing is drawn, read or emitted, and nothing else moves
(42_encryption_wrapper.md R196, R209). -/
def Obligations.EncryptPassesThroughUnderNone : Prop :=
  ∀ s : State, s.frameLen ≠ 0 → s.encKind = 0 →
    ∃ t, exec .encrypt s = .next t ∧ t.status = 0x00 ∧ t.packet = s.frame ∧ t.pktLen = s.frameLen ∧
      t.obs = s.obs ∧ t.crc = s.crc ∧ t.frameLen = s.frameLen ∧
      s.sameBytesBut t 0 0 0 s.frameLen.toNat ∧ s.sameInputs t ∧ s.sameClock t ∧ s.sameEntropy t

/-- A successful encryption assembles `algorithmId || ciphertext || IV`, the ciphertext being the cipher block chaining
of the zero-padded frame after its first byte, for every cipher bound (R198, R200, R202 to R204, R209). -/
def Obligations.EncryptAssemblesThePacket : Prop :=
  ∀ (s : State) (k : Scheme) (iv : Block), s.cfg.wellFormed = true →
    s.frameLen ≠ 0 → s.frameLen.toNat ≤ fbCap s.cfg → s.keyedFor k → s.entropyDraw = some iv →
    ∃ t, exec .encrypt s = .next t ∧ t.status = 0x00 ∧
      t.packet = wirePacket s.cfg.cipher k (s.keyFor k) iv s.frame ∧
      t.pktLen.toNat = 17 + ceil16 (s.frameLen.toNat - 1) ∧ t.pktLen.toNat % 16 = 1 ∧
      t.obs = s.obs ++ [.encryptionApplied] ∧ s.entropyReadOnce t ∧
      ∀ x, x ∈ t.ivHistory ↔ x = iv ∨ x ∈ s.ivHistory

/-- Encryption is never in place and writes no input: FB, FRAME_LEN, CRC, EV, KEY and PB beyond the packet are as
before, the clock is not read (R190 "Not touched", R199, R203). -/
def Obligations.EncryptTouchesOnlyThePacket : Prop :=
  ∀ (s : State) (k : Scheme) (iv : Block), s.cfg.wellFormed = true →
    s.frameLen ≠ 0 → s.frameLen.toNat ≤ fbCap s.cfg → s.keyedFor k → s.entropyDraw = some iv →
    ∃ t, exec .encrypt s = .next t ∧
      s.sameBytesBut t 0 0 0 (17 + ceil16 (s.frameLen.toNat - 1)) ∧ s.sameInputs t ∧
      t.frameLen = s.frameLen ∧ t.crc = s.crc ∧ s.sameClock t

/-- ENCRYPT's tests in their order, each failure with all its effects: no frame, unrecognised scheme, None succeeds,
wrong key length, entropy unavailable; after the last the internal buffers hold anything (R191, R192, R197, R201, R205;
60_exceptions.md R265; 10_state.md R44). -/
def Obligations.EncryptRefusalsInOrder : Prop :=
  (∀ s : State, s.frameLen = 0 →
    ∃ e, exec .encrypt s = .next { s with status := 0x06, pktLen := 0x0000, epoch := e }) ∧
  (∀ s : State, s.frameLen ≠ 0 → 3 < s.encKind.toNat →
    ∃ e, exec .encrypt s = .next { s with status := 0x04, pktLen := 0x0000, epoch := e }) ∧
  (∀ s : State, s.frameLen ≠ 0 → s.encKind = 0 → ∃ t, exec .encrypt s = .next t ∧ t.status = 0x00) ∧
  (∀ (s : State) (k : Scheme), s.frameLen ≠ 0 → schemeOfKind s.encKind = some k →
    s.keyLen.toNat ≠ schemeKeyLength k →
    ∃ e, exec .encrypt s = .next { s with status := 0x03, pktLen := 0x0000, epoch := e }) ∧
  (∀ (s : State) (k : Scheme), s.frameLen ≠ 0 → s.keyedFor k → s.entropyDraw = none →
    ∃ e pt iv chain, exec .encrypt s = .next
      { s with status := 0x05, pktLen := 0x0000, epoch := e, pt := pt, iv := iv, chain := chain
               entropyPort := s.entropyPort.tail, entropyReads := s.entropyReads + 1 })

/-- Round trip: chained-block decryption of a packet's ciphertext under the packet's IV recovers the frame after its
packet-type byte, zero-padded; for AES, and for any cipher with `BlockEncPermutes` (R206; 95_test_vectors.md S4). -/
def Obligations.DecryptionRecoversTheFrame : Prop :=
  ∀ (s : State) (k : Scheme) (iv : Block), s.cfg.wellFormed = true →
    s.frameLen ≠ 0 → s.frameLen.toNat ≤ fbCap s.cfg → s.keyedFor k → s.entropyDraw = some iv →
    (s.cfg.cipher = .aes ∨ blockEncPermutes s.cfg.cipher) →
    ∃ (t : State) (dec : Block → Block), exec .encrypt s = .next t ∧
      (∀ x, dec (blockEnc s.cfg.cipher k (s.keyFor k) x) = x) ∧
      joinBlocks (cbcDecrypt dec
          (Block.ofBytes (t.packet.drop (1 + ceil16 (s.frameLen.toNat - 1))))
          (splitBlocks (ceil16 (s.frameLen.toNat - 1) / 16) (t.packet.drop 1))) =
        s.frame.drop 1 ++
          List.replicate (ceil16 (s.frameLen.toNat - 1) - (s.frameLen.toNat - 1)) 0x00

/-- Two successive encryptions of the same frame under the same key: given `IvFresh` the second packet differs from the
first in its IV and in its first ciphertext block (R206; 95_test_vectors.md S5). -/
def Obligations.FreshIvGivesDifferentPackets : Prop :=
  ∀ (s t : State) (k : Scheme) (iv iv' : Block), s.cfg.wellFormed = true →
    2 ≤ s.frameLen.toNat → s.frameLen.toNat ≤ fbCap s.cfg → s.keyedFor k → s.entropyDraw = some iv →
    (s.cfg.cipher = .aes ∨ blockEncPermutes s.cfg.cipher) →
    exec .encrypt s = .next t → t.ivFresh → t.entropyDraw = some iv' →
    ∃ u, exec .encrypt t = .next u ∧ u.status = 0x00 ∧ u.pktLen = t.pktLen ∧
      u.packet.drop (1 + ceil16 (s.frameLen.toNat - 1)) ≠ t.packet.drop (1 + ceil16 (s.frameLen.toNat - 1)) ∧
      u.bytes .pb 1 16 ≠ t.bytes .pb 1 16

/-- Under a scheme other than None, ENCRYPT's result is a function of the frame after its packet-type byte, ENC_KIND,
KEY, KEYLEN and the draw: nothing else reaches the packet, the packet-type byte neither (R206, R207). -/
def Obligations.EncryptDependsOnFrameKeyAndDrawAlone : Prop :=
  ∀ s s' t t' : State, s.cfg = s'.cfg → s.cfg.wellFormed = true → s.frameLen.toNat ≤ fbCap s.cfg →
    s.encKind ≠ 0 → s.encKind = s'.encKind → s.keyLen = s'.keyLen → s.frameLen = s'.frameLen →
    (∀ i, i < 32 → s.byteAt .key i = s'.byteAt .key i) →
    (∀ x, 1 ≤ x → x < s.frameLen.toNat → s.byteAt .fb x = s'.byteAt .fb x) →
    s.entropyDraw = s'.entropyDraw →
    exec .encrypt s = .next t → exec .encrypt s' = .next t' →
    t.status = t'.status ∧ t.pktLen = t'.pktLen ∧ t.packet = t'.packet

/-- The AES binding permutes blocks for every scheme and key (44_block_cipher.md R236, R246). -/
def Obligations.AesPermutesBlocks : Prop := blockEncPermutes .aes

/-! ### SEND -/

/-- SEND is BUILD, and after a successful BUILD it is ENCRYPT; after a failed one PKT_LEN is 0
(43_pipeline.md R220). -/
def Obligations.SendIsBuildThenEncrypt : Prop :=
  ∀ s t : State, exec .build s = .next t →
    (t.err = 0 → exec .send s = exec .encrypt t) ∧
    (t.err ≠ 0 → ∃ e, exec .send s = .next { t with pktLen := 0x0000, epoch := e })

/-- The whole pipeline: from the event registers to the encrypted packet in one command, with its observability order
(R220, R222; 30_encoding.md R109). -/
def Obligations.SendCarriesTheEventToThePacket : Prop :=
  ∀ (s : State) (k : Scheme) (iv : Block), s.cfg.wellFormed = true → s.buildable → s.keyedFor k →
    s.entropyDraw = some iv →
    ∃ t, exec .send s = .next t ∧ t.status = 0x00 ∧ t.frame = s.wireFrame ∧
      t.frameLen.toNat = 38 + s.size.toNat ∧
      t.packet = wirePacket s.cfg.cipher k (s.keyFor k) iv s.wireFrame ∧
      t.pktLen.toNat = 17 + ceil16 (37 + s.size.toNat) ∧
      t.crc = s.frameCrc ∧ t.obs = s.obs ++ [.checksumComputed, .frameBuilt, .encryptionApplied] ∧
      (∀ x, x ∈ t.ivHistory ↔ x = iv ∨ x ∈ s.ivHistory) ∧ s.sameInputs t ∧ s.entropyReadOnce t ∧ t.clockReads ≤ s.clockReads + 1 ∧
      s.sameBytesBut t 0 (38 + s.size.toNat) 0 (17 + ceil16 (37 + s.size.toNat))

/-- SEND under None: the Packet is the Frame, and the entropy port is not read (R220; 30_encoding.md R108). -/
def Obligations.SendUnderNoneSendsTheFrame : Prop :=
  ∀ s : State, s.cfg.wellFormed = true → s.buildable → s.encKind = 0 →
    ∃ t, exec .send s = .next t ∧ t.status = 0x00 ∧ t.frame = s.wireFrame ∧ t.packet = s.wireFrame ∧
      t.frameLen.toNat = 38 + s.size.toNat ∧ t.pktLen = t.frameLen ∧ t.crc = s.frameCrc ∧
      t.obs = s.obs ++ [.checksumComputed, .frameBuilt] ∧ s.sameInputs t ∧ s.sameEntropy t ∧
      t.clockReads ≤ s.clockReads + 1 ∧ s.sameBytesBut t 0 (38 + s.size.toNat) 0 (38 + s.size.toNat)

/-- SEND's failures: a failed BUILD clears both lengths and reads neither port; a failed ENCRYPT leaves the frame in FB
and no packet (R220; 60_exceptions.md R263, R266). -/
def Obligations.SendFailuresLeaveNoPacket : Prop :=
  (∀ s : State, ¬ s.buildable →
    ∃ t, exec .send s = .next t ∧ (t.status = 0x01 ∨ t.status = 0x02) ∧ t.frameLen = 0 ∧ t.pktLen = 0 ∧
      t.crc = s.crc ∧ t.obs = s.obs ∧ s.sameInputs t ∧ s.sameClock t ∧ s.sameEntropy t) ∧
  (∀ s : State, s.cfg.wellFormed = true → s.buildable → 3 < s.encKind.toNat →
    ∃ t, exec .send s = .next t ∧ t.status = 0x04 ∧ t.frame = s.wireFrame ∧ t.pktLen = 0 ∧ s.sameEntropy t) ∧
  (∀ (s : State) (k : Scheme), s.cfg.wellFormed = true → s.buildable → schemeOfKind s.encKind = some k →
    s.keyLen.toNat ≠ schemeKeyLength k →
    ∃ t, exec .send s = .next t ∧ t.status = 0x03 ∧ t.frame = s.wireFrame ∧ t.pktLen = 0 ∧ s.sameEntropy t) ∧
  (∀ (s : State) (k : Scheme), s.cfg.wellFormed = true → s.buildable → s.keyedFor k → s.entropyDraw = none →
    ∃ t, exec .send s = .next t ∧ t.status = 0x05 ∧ t.frame = s.wireFrame ∧ t.pktLen = 0 ∧
      s.entropyReadOnce t ∧ t.ivHistory = s.ivHistory)

/-! ### All commands -/

/-- No command writes any EV byte, any key byte or any other input register, nor the host's side
(10_state.md R24, R52; 60_exceptions.md R262). -/
def Obligations.CommandsLeaveTheInputsAlone : Prop :=
  ∀ (i : Instr) (s t : State), exec i s = .next t → s.sameInputs t

/-- Every command and every step has a successor state, from every state (93_implementation_defined.md section 2;
60_exceptions.md R260). -/
def Obligations.EveryStepHasASuccessor : Prop :=
  (∀ (i : Instr) (s : State), ∃ t, exec i s = .next t) ∧ ∀ s : State, ∃ t, step s = .next t

/-- All or nothing: a failed BUILD leaves no frame, a failed ENCRYPT or SEND no packet, and a SEND that failed in its
BUILD stage no frame either (60_exceptions.md R266; 43_pipeline.md R220). CRC_APPEND withdraws nothing (R266). -/
def Obligations.FailureWithdrawsTheOutput : Prop :=
  ∀ s t : State,
    (exec .build s = .next t → t.err ≠ 0 → t.frameLen = 0) ∧
    (exec .encrypt s = .next t → t.err ≠ 0 → t.pktLen = 0) ∧
    (exec .send s = .next t → t.err ≠ 0 → t.pktLen = 0) ∧
    (exec .send s = .next t → t.err = 1 ∨ t.err = 2 → t.frameLen = 0)

/-- STATUS never holds the result of an older command: what it held before does not matter (10_state.md R37). -/
def Obligations.StatusOfOlderCommandsIsGone : Prop :=
  ∀ (i : Instr) (s : State) (old : Byte), exec i { s with status := old } = exec i s

/-- The result codes each command can leave in STATUS, the reserved bits 0 (60_exceptions.md R261 "raised by";
10_state.md R37; 43_pipeline.md R220: OperandError cannot occur in SEND). -/
def Obligations.StatusCodesOfEachCommand : Prop :=
  ∀ s t : State, s.cfg.wellFormed = true →
    (exec .build s = .next t → t.status ∈ [0x00#8, 0x01#8, 0x02#8]) ∧
    (exec .crcAppend s = .next t → t.status ∈ [0x00#8, 0x06#8]) ∧
    (exec .encrypt s = .next t → t.status ∈ [0x00#8, 0x03#8, 0x04#8, 0x05#8, 0x06#8]) ∧
    (exec .send s = .next t → t.status ∈ [0x00#8, 0x01#8, 0x02#8, 0x03#8, 0x04#8, 0x05#8]) ∧
    (exec .crcInit s = .next t → t.status = 0x00) ∧
    (exec .crcUpdate s = .next t → t.status = 0x00)

/-- The clock and the entropy port are read at most once per command, and by BUILD, ENCRYPT and SEND only
(60_exceptions.md R285; 10_state.md R52). -/
def Obligations.PortsAreReadAtMostOncePerCommand : Prop :=
  ∀ (i : Instr) (s t : State), exec i s = .next t →
    (s.sameClock t ∨ (i = .build ∨ i = .send) ∧
      t.clockReads = s.clockReads + 1 ∧ t.clockPort = s.clockPort.tail) ∧
    (t.entropyReads = s.entropyReads ∧ t.entropyPort = s.entropyPort ∨
      (i = .encrypt ∨ i = .send) ∧ s.entropyReadOnce t)

/-! ### The invariant -/

/-- The invariant of 10_state.md R51 holds after reset. -/
def Obligations.ResetMeetsTheInvariant : Prop := State.reset.Inv

/-- The invariant of 10_state.md R51 is kept by every command, host access and reset, from every state. -/
def Obligations.EveryStepKeepsTheInvariant : Prop :=
  ∀ s t : State, s.Inv → step s = .next t → t.Inv
end

