-- ==== Sys2Proof/Laws/Memory.lean ====
section
/-! SUPPORT. Laws of a byte store: a read after a write, every other offset left alone, and the canonical form kept by
every operation. -/

namespace Sys2Proof.Machine

@[simp] theorem Memory.lookup_nil (a : Nat) : Memory.lookup [] a = none := rfl

/-- A byte written is the byte read there, and every other offset reads as before. -/
theorem Memory.lookup_store (m : Memory) (a : Nat) (b : Byte) (x : Nat) :
    (m.store a b).lookup x = if x = a then some b else m.lookup x := by
  induction m with
  | nil => simp [Memory.store, Memory.lookup]
  | cons c m ih =>
    obtain ⟨k, v⟩ := c
    simp only [Memory.store]
    split
    · simp [Memory.lookup]
    · split
      · subst_vars
        simp only [Memory.lookup]
        split <;> simp_all
      · simp only [Memory.lookup, ih]
        split
        · split
          · omega
          · rfl
        · rfl

/-- A byte string written is read at its offsets, and every other offset reads as before. -/
theorem Memory.lookup_storeAll (m : Memory) (a : Nat) (bs : List Byte) (x : Nat) :
    (m.storeAll a bs).lookup x = if a ≤ x ∧ x < a + bs.length then bs[x - a]? else m.lookup x := by
  induction bs generalizing m a with
  | nil => simp only [Memory.storeAll, List.length_nil, Nat.add_zero]; split <;> [omega; rfl]
  | cons b bs ih =>
    simp only [Memory.storeAll, ih, Memory.lookup_store, List.length_cons]
    by_cases h1 : x = a
    · subst h1; simp
    · by_cases h2 : a ≤ x
      · obtain ⟨d, rfl⟩ : ∃ d, x = a + 1 + d := ⟨x - (a + 1), by omega⟩
        have e1 : a + 1 + d - (a + 1) = d := by omega
        have e2 : a + 1 + d - a = d + 1 := by omega
        simp only [e1, e2, List.getElem?_cons_succ, h1, if_false]
        by_cases h3 : d < bs.length
        · rw [if_pos (by omega), if_pos (by omega)]
        · rw [if_neg (by omega), if_neg (by omega)]
      · rw [if_neg (by omega), if_neg h1, if_neg (by omega)]

/-- What has been written stays written. -/
theorem Memory.isSome_storeAll (m : Memory) (a : Nat) (bs : List Byte) (x : Nat) :
    ((m.storeAll a bs).lookup x).isSome = true ↔
      (a ≤ x ∧ x < a + bs.length) ∨ (m.lookup x).isSome = true := by
  rw [Memory.lookup_storeAll]
  by_cases h : a ≤ x ∧ x < a + bs.length
  · have : x - a < bs.length := by omega
    simp [h, this]
  · simp [h]

theorem Memory.risingFrom_mono {lo lo' : Nat} (h : lo' ≤ lo) :
    ∀ {m : Memory}, m.risingFrom lo = true → m.risingFrom lo' = true
  | [], _ => rfl
  | (k, v) :: m, hm => by
    simp only [Memory.risingFrom, Bool.and_eq_true, decide_eq_true_eq] at hm ⊢
    exact ⟨by omega, hm.2⟩

theorem Memory.risingFrom_store (m : Memory) (lo a : Nat) (b : Byte)
    (ha : lo ≤ a) (hm : m.risingFrom lo = true) : (m.store a b).risingFrom lo = true := by
  induction m generalizing lo with
  | nil => simp [Memory.store, Memory.risingFrom, ha]
  | cons c m ih =>
    obtain ⟨k, v⟩ := c
    simp only [Memory.risingFrom, Bool.and_eq_true, decide_eq_true_eq] at hm
    simp only [Memory.store]
    split
    · simp only [Memory.risingFrom, Bool.and_eq_true, decide_eq_true_eq]
      exact ⟨ha, by omega, hm.2⟩
    · split
      · subst_vars
        simp only [Memory.risingFrom, Bool.and_eq_true, decide_eq_true_eq]
        exact hm
      · simp only [Memory.risingFrom, Bool.and_eq_true, decide_eq_true_eq]
        exact ⟨hm.1, ih _ (by omega) hm.2⟩

/-- Writing a byte keeps the canonical form. -/
theorem Memory.wf_store {m : Memory} (h : m.wf = true) (a : Nat) (b : Byte) : (m.store a b).wf = true :=
  Memory.risingFrom_store m 0 a b (Nat.zero_le _) h

/-- Writing a byte string keeps the canonical form. -/
theorem Memory.wf_storeAll {m : Memory} (h : m.wf = true) (a : Nat) (bs : List Byte) :
    (m.storeAll a bs).wf = true := by
  induction bs generalizing m a with
  | nil => exact h
  | cons b bs ih => exact ih (Memory.wf_store h a b) (a + 1)

@[simp] theorem Memory.wf_nil : Memory.wf [] = true := rfl
@[simp] theorem Memory.within_nil (n : Nat) : Memory.within [] n = true := rfl

theorem Memory.within_store {m : Memory} {n a : Nat} {b : Byte}
    (h : m.within n = true) (ha : a < n) : (m.store a b).within n = true := by
  induction m with
  | nil => simp [Memory.store, Memory.within, ha]
  | cons c m ih =>
    obtain ⟨k, v⟩ := c
    simp only [Memory.within, List.all_cons, Bool.and_eq_true, decide_eq_true_eq] at h
    simp only [Memory.store]
    split
    · simp only [Memory.within, List.all_cons, Bool.and_eq_true, decide_eq_true_eq]
      exact ⟨ha, h⟩
    · split
      · simp only [Memory.within, List.all_cons, Bool.and_eq_true, decide_eq_true_eq]
        exact ⟨ha, h.2⟩
      · simp only [Memory.within, List.all_cons, Bool.and_eq_true, decide_eq_true_eq]
        exact ⟨h.1, ih h.2⟩

/-- Writing below a bound keeps every written offset below it. -/
theorem Memory.within_storeAll {m : Memory} {n : Nat} (h : m.within n = true) (a : Nat) (bs : List Byte)
    (hb : a + bs.length ≤ n) : (m.storeAll a bs).within n = true := by
  induction bs generalizing m a with
  | nil => exact h
  | cons b bs ih =>
    simp only [List.length_cons] at hb
    exact ih (Memory.within_store h (by omega)) (a + 1) (by omega)

/-- Two stores in canonical form that read alike everywhere are the same data. -/
theorem Memory.ext_of_wf {m m' : Memory} (h : m.wf = true) (h' : m'.wf = true)
    (e : ∀ a, m.lookup a = m'.lookup a) : m = m' := by
  have below : ∀ (m : Memory) (lo a : Nat), m.risingFrom lo = true → a < lo → m.lookup a = none := by
    intro m
    induction m with
    | nil => intros; rfl
    | cons c m ih =>
      obtain ⟨k, v⟩ := c
      intro lo a hm ha
      simp only [Memory.risingFrom, Bool.and_eq_true, decide_eq_true_eq] at hm
      simp only [Memory.lookup]
      rw [if_neg (by omega)]
      exact ih (k + 1) a hm.2 (by omega)
  have gen : ∀ (m m' : Memory) (lo : Nat), m.risingFrom lo = true → m'.risingFrom lo = true →
      (∀ a, m.lookup a = m'.lookup a) → m = m' := by
    intro m
    induction m with
    | nil =>
      intro m' lo _ h' e
      cases m' with
      | nil => rfl
      | cons c m' => have := e c.1; simp [Memory.lookup] at this
    | cons c m ih =>
      obtain ⟨k, v⟩ := c
      intro m' lo h h' e
      cases m' with
      | nil => have := e k; simp [Memory.lookup] at this
      | cons c' m' =>
        obtain ⟨k', v'⟩ := c'
        simp only [Memory.risingFrom, Bool.and_eq_true, decide_eq_true_eq] at h h'
        have hk : k = k' := by
          rcases Nat.lt_trichotomy k k' with hlt | heq | hgt
          · have := e k
            simp only [Memory.lookup, if_true] at this
            rw [if_neg (by omega), below m' (k' + 1) k h'.2 (by omega)] at this
            cases this
          · exact heq
          · have := e k'
            simp only [Memory.lookup, if_true] at this
            rw [if_neg (by omega), below m (k + 1) k' h.2 (by omega)] at this
            cases this
        subst hk
        have hv : v = v' := by simpa [Memory.lookup] using e k
        subst hv
        have : m = m' := ih m' (k + 1) h.2 h'.2 (by
          intro a
          by_cases ha : a = k
          · subst ha
            rw [below m (a + 1) a h.2 (by omega), below m' (a + 1) a h'.2 (by omega)]
          · have := e a
            simpa [Memory.lookup, ha] using this)
        rw [this]
  exact gen m m' 0 h h' e

end Sys2Proof.Machine
end

