-- ==== Sys2Proof/Laws/State.lean ====
section
/-! SUPPORT. What each update of the state does to each field, one lemma per field and update, so that no proof
unfolds a record update. -/

namespace Sys2Proof.Machine

variable (s : State)

@[simp] theorem State.beginCommand_cfg : (s.beginCommand).cfg = s.cfg := rfl
@[simp] theorem State.beginCommand_status : (s.beginCommand).status = 0x00 := rfl
@[simp] theorem State.beginCommand_evKind : (s.beginCommand).evKind = s.evKind := rfl
@[simp] theorem State.beginCommand_encKind : (s.beginCommand).encKind = s.encKind := rfl
@[simp] theorem State.beginCommand_keyLen : (s.beginCommand).keyLen = s.keyLen := rfl
@[simp] theorem State.beginCommand_crcDin : (s.beginCommand).crcDin = s.crcDin := rfl
@[simp] theorem State.beginCommand_crc : (s.beginCommand).crc = s.crc := rfl
@[simp] theorem State.beginCommand_crcStart : (s.beginCommand).crcStart = s.crcStart := rfl
@[simp] theorem State.beginCommand_crcEnd : (s.beginCommand).crcEnd = s.crcEnd := rfl
@[simp] theorem State.beginCommand_frameLen : (s.beginCommand).frameLen = s.frameLen := rfl
@[simp] theorem State.beginCommand_pktLen : (s.beginCommand).pktLen = s.pktLen := rfl
@[simp] theorem State.beginCommand_key : (s.beginCommand).key = s.key := rfl
@[simp] theorem State.beginCommand_ev : (s.beginCommand).ev = s.ev := rfl
@[simp] theorem State.beginCommand_fb : (s.beginCommand).fb = s.fb := rfl
@[simp] theorem State.beginCommand_pb : (s.beginCommand).pb = s.pb := rfl
@[simp] theorem State.beginCommand_pt : (s.beginCommand).pt = s.pt := rfl
@[simp] theorem State.beginCommand_iv : (s.beginCommand).iv = s.iv := rfl
@[simp] theorem State.beginCommand_chain : (s.beginCommand).chain = s.chain := rfl
@[simp] theorem State.beginCommand_obs : (s.beginCommand).obs = s.obs := rfl
@[simp] theorem State.beginCommand_ivHistory : (s.beginCommand).ivHistory = s.ivHistory := rfl
@[simp] theorem State.beginCommand_clockPort : (s.beginCommand).clockPort = s.clockPort := rfl
@[simp] theorem State.beginCommand_clockReads : (s.beginCommand).clockReads = s.clockReads := rfl
@[simp] theorem State.beginCommand_entropyPort : (s.beginCommand).entropyPort = s.entropyPort := rfl
@[simp] theorem State.beginCommand_entropyReads : (s.beginCommand).entropyReads = s.entropyReads := rfl
@[simp] theorem State.beginCommand_inputs : (s.beginCommand).inputs = s.inputs := rfl
@[simp] theorem State.beginCommand_answers : (s.beginCommand).answers = s.answers := rfl
@[simp] theorem State.beginCommand_epoch : (s.beginCommand).epoch = s.epoch := rfl
@[simp] theorem State.beginCommand_resets : (s.beginCommand).resets = s.resets := rfl

@[simp] theorem State.setErr_cfg (c : BitVec 4) : (s.setErr c).cfg = s.cfg := rfl
@[simp] theorem State.setErr_status (c : BitVec 4) : (s.setErr c).status = s.statusReserved ++ c := rfl
@[simp] theorem State.setErr_evKind (c : BitVec 4) : (s.setErr c).evKind = s.evKind := rfl
@[simp] theorem State.setErr_encKind (c : BitVec 4) : (s.setErr c).encKind = s.encKind := rfl
@[simp] theorem State.setErr_keyLen (c : BitVec 4) : (s.setErr c).keyLen = s.keyLen := rfl
@[simp] theorem State.setErr_crcDin (c : BitVec 4) : (s.setErr c).crcDin = s.crcDin := rfl
@[simp] theorem State.setErr_crc (c : BitVec 4) : (s.setErr c).crc = s.crc := rfl
@[simp] theorem State.setErr_crcStart (c : BitVec 4) : (s.setErr c).crcStart = s.crcStart := rfl
@[simp] theorem State.setErr_crcEnd (c : BitVec 4) : (s.setErr c).crcEnd = s.crcEnd := rfl
@[simp] theorem State.setErr_frameLen (c : BitVec 4) : (s.setErr c).frameLen = s.frameLen := rfl
@[simp] theorem State.setErr_pktLen (c : BitVec 4) : (s.setErr c).pktLen = s.pktLen := rfl
@[simp] theorem State.setErr_key (c : BitVec 4) : (s.setErr c).key = s.key := rfl
@[simp] theorem State.setErr_ev (c : BitVec 4) : (s.setErr c).ev = s.ev := rfl
@[simp] theorem State.setErr_fb (c : BitVec 4) : (s.setErr c).fb = s.fb := rfl
@[simp] theorem State.setErr_pb (c : BitVec 4) : (s.setErr c).pb = s.pb := rfl
@[simp] theorem State.setErr_pt (c : BitVec 4) : (s.setErr c).pt = s.pt := rfl
@[simp] theorem State.setErr_iv (c : BitVec 4) : (s.setErr c).iv = s.iv := rfl
@[simp] theorem State.setErr_chain (c : BitVec 4) : (s.setErr c).chain = s.chain := rfl
@[simp] theorem State.setErr_obs (c : BitVec 4) : (s.setErr c).obs = s.obs := rfl
@[simp] theorem State.setErr_ivHistory (c : BitVec 4) : (s.setErr c).ivHistory = s.ivHistory := rfl
@[simp] theorem State.setErr_clockPort (c : BitVec 4) : (s.setErr c).clockPort = s.clockPort := rfl
@[simp] theorem State.setErr_clockReads (c : BitVec 4) : (s.setErr c).clockReads = s.clockReads := rfl
@[simp] theorem State.setErr_entropyPort (c : BitVec 4) : (s.setErr c).entropyPort = s.entropyPort := rfl
@[simp] theorem State.setErr_entropyReads (c : BitVec 4) : (s.setErr c).entropyReads = s.entropyReads := rfl
@[simp] theorem State.setErr_inputs (c : BitVec 4) : (s.setErr c).inputs = s.inputs := rfl
@[simp] theorem State.setErr_answers (c : BitVec 4) : (s.setErr c).answers = s.answers := rfl
@[simp] theorem State.setErr_epoch (c : BitVec 4) : (s.setErr c).epoch = s.epoch := rfl
@[simp] theorem State.setErr_resets (c : BitVec 4) : (s.setErr c).resets = s.resets := rfl

@[simp] theorem State.redrawTails_cfg : (s.redrawTails).cfg = s.cfg := rfl
@[simp] theorem State.redrawTails_status : (s.redrawTails).status = s.status := rfl
@[simp] theorem State.redrawTails_evKind : (s.redrawTails).evKind = s.evKind := rfl
@[simp] theorem State.redrawTails_encKind : (s.redrawTails).encKind = s.encKind := rfl
@[simp] theorem State.redrawTails_keyLen : (s.redrawTails).keyLen = s.keyLen := rfl
@[simp] theorem State.redrawTails_crcDin : (s.redrawTails).crcDin = s.crcDin := rfl
@[simp] theorem State.redrawTails_crc : (s.redrawTails).crc = s.crc := rfl
@[simp] theorem State.redrawTails_crcStart : (s.redrawTails).crcStart = s.crcStart := rfl
@[simp] theorem State.redrawTails_crcEnd : (s.redrawTails).crcEnd = s.crcEnd := rfl
@[simp] theorem State.redrawTails_frameLen : (s.redrawTails).frameLen = s.frameLen := rfl
@[simp] theorem State.redrawTails_pktLen : (s.redrawTails).pktLen = s.pktLen := rfl
@[simp] theorem State.redrawTails_key : (s.redrawTails).key = s.key := rfl
@[simp] theorem State.redrawTails_ev : (s.redrawTails).ev = s.ev := rfl
@[simp] theorem State.redrawTails_fb : (s.redrawTails).fb = s.fb := rfl
@[simp] theorem State.redrawTails_pb : (s.redrawTails).pb = s.pb := rfl
@[simp] theorem State.redrawTails_pt : (s.redrawTails).pt = s.pt := rfl
@[simp] theorem State.redrawTails_iv : (s.redrawTails).iv = s.iv := rfl
@[simp] theorem State.redrawTails_chain : (s.redrawTails).chain = s.chain := rfl
@[simp] theorem State.redrawTails_obs : (s.redrawTails).obs = s.obs := rfl
@[simp] theorem State.redrawTails_ivHistory : (s.redrawTails).ivHistory = s.ivHistory := rfl
@[simp] theorem State.redrawTails_clockPort : (s.redrawTails).clockPort = s.clockPort := rfl
@[simp] theorem State.redrawTails_clockReads : (s.redrawTails).clockReads = s.clockReads := rfl
@[simp] theorem State.redrawTails_entropyPort : (s.redrawTails).entropyPort = s.entropyPort := rfl
@[simp] theorem State.redrawTails_entropyReads : (s.redrawTails).entropyReads = s.entropyReads := rfl
@[simp] theorem State.redrawTails_inputs : (s.redrawTails).inputs = s.inputs := rfl
@[simp] theorem State.redrawTails_answers : (s.redrawTails).answers = s.answers := rfl
@[simp] theorem State.redrawTails_epoch : (s.redrawTails).epoch = s.epoch + 1 := rfl
@[simp] theorem State.redrawTails_resets : (s.redrawTails).resets = s.resets := rfl

@[simp] theorem State.withdrawFrame_cfg : (s.withdrawFrame).cfg = s.cfg := rfl
@[simp] theorem State.withdrawFrame_status : (s.withdrawFrame).status = s.status := rfl
@[simp] theorem State.withdrawFrame_evKind : (s.withdrawFrame).evKind = s.evKind := rfl
@[simp] theorem State.withdrawFrame_encKind : (s.withdrawFrame).encKind = s.encKind := rfl
@[simp] theorem State.withdrawFrame_keyLen : (s.withdrawFrame).keyLen = s.keyLen := rfl
@[simp] theorem State.withdrawFrame_crcDin : (s.withdrawFrame).crcDin = s.crcDin := rfl
@[simp] theorem State.withdrawFrame_crc : (s.withdrawFrame).crc = s.crc := rfl
@[simp] theorem State.withdrawFrame_crcStart : (s.withdrawFrame).crcStart = s.crcStart := rfl
@[simp] theorem State.withdrawFrame_crcEnd : (s.withdrawFrame).crcEnd = s.crcEnd := rfl
@[simp] theorem State.withdrawFrame_frameLen : (s.withdrawFrame).frameLen = 0x0000 := rfl
@[simp] theorem State.withdrawFrame_pktLen : (s.withdrawFrame).pktLen = s.pktLen := rfl
@[simp] theorem State.withdrawFrame_key : (s.withdrawFrame).key = s.key := rfl
@[simp] theorem State.withdrawFrame_ev : (s.withdrawFrame).ev = s.ev := rfl
@[simp] theorem State.withdrawFrame_fb : (s.withdrawFrame).fb = s.fb := rfl
@[simp] theorem State.withdrawFrame_pb : (s.withdrawFrame).pb = s.pb := rfl
@[simp] theorem State.withdrawFrame_pt : (s.withdrawFrame).pt = s.pt := rfl
@[simp] theorem State.withdrawFrame_iv : (s.withdrawFrame).iv = s.iv := rfl
@[simp] theorem State.withdrawFrame_chain : (s.withdrawFrame).chain = s.chain := rfl
@[simp] theorem State.withdrawFrame_obs : (s.withdrawFrame).obs = s.obs := rfl
@[simp] theorem State.withdrawFrame_ivHistory : (s.withdrawFrame).ivHistory = s.ivHistory := rfl
@[simp] theorem State.withdrawFrame_clockPort : (s.withdrawFrame).clockPort = s.clockPort := rfl
@[simp] theorem State.withdrawFrame_clockReads : (s.withdrawFrame).clockReads = s.clockReads := rfl
@[simp] theorem State.withdrawFrame_entropyPort : (s.withdrawFrame).entropyPort = s.entropyPort := rfl
@[simp] theorem State.withdrawFrame_entropyReads : (s.withdrawFrame).entropyReads = s.entropyReads := rfl
@[simp] theorem State.withdrawFrame_inputs : (s.withdrawFrame).inputs = s.inputs := rfl
@[simp] theorem State.withdrawFrame_answers : (s.withdrawFrame).answers = s.answers := rfl
@[simp] theorem State.withdrawFrame_epoch : (s.withdrawFrame).epoch = s.epoch + 1 := rfl
@[simp] theorem State.withdrawFrame_resets : (s.withdrawFrame).resets = s.resets := rfl

@[simp] theorem State.withdrawPacket_cfg : (s.withdrawPacket).cfg = s.cfg := rfl
@[simp] theorem State.withdrawPacket_status : (s.withdrawPacket).status = s.status := rfl
@[simp] theorem State.withdrawPacket_evKind : (s.withdrawPacket).evKind = s.evKind := rfl
@[simp] theorem State.withdrawPacket_encKind : (s.withdrawPacket).encKind = s.encKind := rfl
@[simp] theorem State.withdrawPacket_keyLen : (s.withdrawPacket).keyLen = s.keyLen := rfl
@[simp] theorem State.withdrawPacket_crcDin : (s.withdrawPacket).crcDin = s.crcDin := rfl
@[simp] theorem State.withdrawPacket_crc : (s.withdrawPacket).crc = s.crc := rfl
@[simp] theorem State.withdrawPacket_crcStart : (s.withdrawPacket).crcStart = s.crcStart := rfl
@[simp] theorem State.withdrawPacket_crcEnd : (s.withdrawPacket).crcEnd = s.crcEnd := rfl
@[simp] theorem State.withdrawPacket_frameLen : (s.withdrawPacket).frameLen = s.frameLen := rfl
@[simp] theorem State.withdrawPacket_pktLen : (s.withdrawPacket).pktLen = 0x0000 := rfl
@[simp] theorem State.withdrawPacket_key : (s.withdrawPacket).key = s.key := rfl
@[simp] theorem State.withdrawPacket_ev : (s.withdrawPacket).ev = s.ev := rfl
@[simp] theorem State.withdrawPacket_fb : (s.withdrawPacket).fb = s.fb := rfl
@[simp] theorem State.withdrawPacket_pb : (s.withdrawPacket).pb = s.pb := rfl
@[simp] theorem State.withdrawPacket_pt : (s.withdrawPacket).pt = s.pt := rfl
@[simp] theorem State.withdrawPacket_iv : (s.withdrawPacket).iv = s.iv := rfl
@[simp] theorem State.withdrawPacket_chain : (s.withdrawPacket).chain = s.chain := rfl
@[simp] theorem State.withdrawPacket_obs : (s.withdrawPacket).obs = s.obs := rfl
@[simp] theorem State.withdrawPacket_ivHistory : (s.withdrawPacket).ivHistory = s.ivHistory := rfl
@[simp] theorem State.withdrawPacket_clockPort : (s.withdrawPacket).clockPort = s.clockPort := rfl
@[simp] theorem State.withdrawPacket_clockReads : (s.withdrawPacket).clockReads = s.clockReads := rfl
@[simp] theorem State.withdrawPacket_entropyPort : (s.withdrawPacket).entropyPort = s.entropyPort := rfl
@[simp] theorem State.withdrawPacket_entropyReads : (s.withdrawPacket).entropyReads = s.entropyReads := rfl
@[simp] theorem State.withdrawPacket_inputs : (s.withdrawPacket).inputs = s.inputs := rfl
@[simp] theorem State.withdrawPacket_answers : (s.withdrawPacket).answers = s.answers := rfl
@[simp] theorem State.withdrawPacket_epoch : (s.withdrawPacket).epoch = s.epoch + 1 := rfl
@[simp] theorem State.withdrawPacket_resets : (s.withdrawPacket).resets = s.resets := rfl

@[simp] theorem State.forgetWork_cfg : (s.forgetWork).cfg = s.cfg := rfl
@[simp] theorem State.forgetWork_status : (s.forgetWork).status = s.status := rfl
@[simp] theorem State.forgetWork_evKind : (s.forgetWork).evKind = s.evKind := rfl
@[simp] theorem State.forgetWork_encKind : (s.forgetWork).encKind = s.encKind := rfl
@[simp] theorem State.forgetWork_keyLen : (s.forgetWork).keyLen = s.keyLen := rfl
@[simp] theorem State.forgetWork_crcDin : (s.forgetWork).crcDin = s.crcDin := rfl
@[simp] theorem State.forgetWork_crc : (s.forgetWork).crc = s.crc := rfl
@[simp] theorem State.forgetWork_crcStart : (s.forgetWork).crcStart = s.crcStart := rfl
@[simp] theorem State.forgetWork_crcEnd : (s.forgetWork).crcEnd = s.crcEnd := rfl
@[simp] theorem State.forgetWork_frameLen : (s.forgetWork).frameLen = s.frameLen := rfl
@[simp] theorem State.forgetWork_pktLen : (s.forgetWork).pktLen = s.pktLen := rfl
@[simp] theorem State.forgetWork_key : (s.forgetWork).key = s.key := rfl
@[simp] theorem State.forgetWork_ev : (s.forgetWork).ev = s.ev := rfl
@[simp] theorem State.forgetWork_fb : (s.forgetWork).fb = s.fb := rfl
@[simp] theorem State.forgetWork_pb : (s.forgetWork).pb = s.pb := rfl
@[simp] theorem State.forgetWork_pt : (s.forgetWork).pt = [] := rfl
@[simp] theorem State.forgetWork_iv : (s.forgetWork).iv = [] := rfl
@[simp] theorem State.forgetWork_chain : (s.forgetWork).chain = [] := rfl
@[simp] theorem State.forgetWork_obs : (s.forgetWork).obs = s.obs := rfl
@[simp] theorem State.forgetWork_ivHistory : (s.forgetWork).ivHistory = s.ivHistory := rfl
@[simp] theorem State.forgetWork_clockPort : (s.forgetWork).clockPort = s.clockPort := rfl
@[simp] theorem State.forgetWork_clockReads : (s.forgetWork).clockReads = s.clockReads := rfl
@[simp] theorem State.forgetWork_entropyPort : (s.forgetWork).entropyPort = s.entropyPort := rfl
@[simp] theorem State.forgetWork_entropyReads : (s.forgetWork).entropyReads = s.entropyReads := rfl
@[simp] theorem State.forgetWork_inputs : (s.forgetWork).inputs = s.inputs := rfl
@[simp] theorem State.forgetWork_answers : (s.forgetWork).answers = s.answers := rfl
@[simp] theorem State.forgetWork_epoch : (s.forgetWork).epoch = s.epoch := rfl
@[simp] theorem State.forgetWork_resets : (s.forgetWork).resets = s.resets := rfl

@[simp] theorem State.emit_cfg (e : ObsEvent) : (s.emit e).cfg = s.cfg := rfl
@[simp] theorem State.emit_status (e : ObsEvent) : (s.emit e).status = s.status := rfl
@[simp] theorem State.emit_evKind (e : ObsEvent) : (s.emit e).evKind = s.evKind := rfl
@[simp] theorem State.emit_encKind (e : ObsEvent) : (s.emit e).encKind = s.encKind := rfl
@[simp] theorem State.emit_keyLen (e : ObsEvent) : (s.emit e).keyLen = s.keyLen := rfl
@[simp] theorem State.emit_crcDin (e : ObsEvent) : (s.emit e).crcDin = s.crcDin := rfl
@[simp] theorem State.emit_crc (e : ObsEvent) : (s.emit e).crc = s.crc := rfl
@[simp] theorem State.emit_crcStart (e : ObsEvent) : (s.emit e).crcStart = s.crcStart := rfl
@[simp] theorem State.emit_crcEnd (e : ObsEvent) : (s.emit e).crcEnd = s.crcEnd := rfl
@[simp] theorem State.emit_frameLen (e : ObsEvent) : (s.emit e).frameLen = s.frameLen := rfl
@[simp] theorem State.emit_pktLen (e : ObsEvent) : (s.emit e).pktLen = s.pktLen := rfl
@[simp] theorem State.emit_key (e : ObsEvent) : (s.emit e).key = s.key := rfl
@[simp] theorem State.emit_ev (e : ObsEvent) : (s.emit e).ev = s.ev := rfl
@[simp] theorem State.emit_fb (e : ObsEvent) : (s.emit e).fb = s.fb := rfl
@[simp] theorem State.emit_pb (e : ObsEvent) : (s.emit e).pb = s.pb := rfl
@[simp] theorem State.emit_pt (e : ObsEvent) : (s.emit e).pt = s.pt := rfl
@[simp] theorem State.emit_iv (e : ObsEvent) : (s.emit e).iv = s.iv := rfl
@[simp] theorem State.emit_chain (e : ObsEvent) : (s.emit e).chain = s.chain := rfl
@[simp] theorem State.emit_obs (e : ObsEvent) : (s.emit e).obs = s.obs ++ [e] := rfl
@[simp] theorem State.emit_ivHistory (e : ObsEvent) : (s.emit e).ivHistory = s.ivHistory := rfl
@[simp] theorem State.emit_clockPort (e : ObsEvent) : (s.emit e).clockPort = s.clockPort := rfl
@[simp] theorem State.emit_clockReads (e : ObsEvent) : (s.emit e).clockReads = s.clockReads := rfl
@[simp] theorem State.emit_entropyPort (e : ObsEvent) : (s.emit e).entropyPort = s.entropyPort := rfl
@[simp] theorem State.emit_entropyReads (e : ObsEvent) : (s.emit e).entropyReads = s.entropyReads := rfl
@[simp] theorem State.emit_inputs (e : ObsEvent) : (s.emit e).inputs = s.inputs := rfl
@[simp] theorem State.emit_answers (e : ObsEvent) : (s.emit e).answers = s.answers := rfl
@[simp] theorem State.emit_epoch (e : ObsEvent) : (s.emit e).epoch = s.epoch := rfl
@[simp] theorem State.emit_resets (e : ObsEvent) : (s.emit e).resets = s.resets := rfl

@[simp] theorem State.clockRead_cfg : (s.clockRead).cfg = s.cfg := rfl
@[simp] theorem State.clockRead_status : (s.clockRead).status = s.status := rfl
@[simp] theorem State.clockRead_evKind : (s.clockRead).evKind = s.evKind := rfl
@[simp] theorem State.clockRead_encKind : (s.clockRead).encKind = s.encKind := rfl
@[simp] theorem State.clockRead_keyLen : (s.clockRead).keyLen = s.keyLen := rfl
@[simp] theorem State.clockRead_crcDin : (s.clockRead).crcDin = s.crcDin := rfl
@[simp] theorem State.clockRead_crc : (s.clockRead).crc = s.crc := rfl
@[simp] theorem State.clockRead_crcStart : (s.clockRead).crcStart = s.crcStart := rfl
@[simp] theorem State.clockRead_crcEnd : (s.clockRead).crcEnd = s.crcEnd := rfl
@[simp] theorem State.clockRead_frameLen : (s.clockRead).frameLen = s.frameLen := rfl
@[simp] theorem State.clockRead_pktLen : (s.clockRead).pktLen = s.pktLen := rfl
@[simp] theorem State.clockRead_key : (s.clockRead).key = s.key := rfl
@[simp] theorem State.clockRead_ev : (s.clockRead).ev = s.ev := rfl
@[simp] theorem State.clockRead_fb : (s.clockRead).fb = s.fb := rfl
@[simp] theorem State.clockRead_pb : (s.clockRead).pb = s.pb := rfl
@[simp] theorem State.clockRead_pt : (s.clockRead).pt = s.pt := rfl
@[simp] theorem State.clockRead_iv : (s.clockRead).iv = s.iv := rfl
@[simp] theorem State.clockRead_chain : (s.clockRead).chain = s.chain := rfl
@[simp] theorem State.clockRead_obs : (s.clockRead).obs = s.obs := rfl
@[simp] theorem State.clockRead_ivHistory : (s.clockRead).ivHistory = s.ivHistory := rfl
@[simp] theorem State.clockRead_clockPort : (s.clockRead).clockPort = s.clockPort.tail := rfl
@[simp] theorem State.clockRead_clockReads : (s.clockRead).clockReads = s.clockReads + 1 := rfl
@[simp] theorem State.clockRead_entropyPort : (s.clockRead).entropyPort = s.entropyPort := rfl
@[simp] theorem State.clockRead_entropyReads : (s.clockRead).entropyReads = s.entropyReads := rfl
@[simp] theorem State.clockRead_inputs : (s.clockRead).inputs = s.inputs := rfl
@[simp] theorem State.clockRead_answers : (s.clockRead).answers = s.answers := rfl
@[simp] theorem State.clockRead_epoch : (s.clockRead).epoch = s.epoch := rfl
@[simp] theorem State.clockRead_resets : (s.clockRead).resets = s.resets := rfl

@[simp] theorem State.entropyRead_cfg : (s.entropyRead).cfg = s.cfg := rfl
@[simp] theorem State.entropyRead_status : (s.entropyRead).status = s.status := rfl
@[simp] theorem State.entropyRead_evKind : (s.entropyRead).evKind = s.evKind := rfl
@[simp] theorem State.entropyRead_encKind : (s.entropyRead).encKind = s.encKind := rfl
@[simp] theorem State.entropyRead_keyLen : (s.entropyRead).keyLen = s.keyLen := rfl
@[simp] theorem State.entropyRead_crcDin : (s.entropyRead).crcDin = s.crcDin := rfl
@[simp] theorem State.entropyRead_crc : (s.entropyRead).crc = s.crc := rfl
@[simp] theorem State.entropyRead_crcStart : (s.entropyRead).crcStart = s.crcStart := rfl
@[simp] theorem State.entropyRead_crcEnd : (s.entropyRead).crcEnd = s.crcEnd := rfl
@[simp] theorem State.entropyRead_frameLen : (s.entropyRead).frameLen = s.frameLen := rfl
@[simp] theorem State.entropyRead_pktLen : (s.entropyRead).pktLen = s.pktLen := rfl
@[simp] theorem State.entropyRead_key : (s.entropyRead).key = s.key := rfl
@[simp] theorem State.entropyRead_ev : (s.entropyRead).ev = s.ev := rfl
@[simp] theorem State.entropyRead_fb : (s.entropyRead).fb = s.fb := rfl
@[simp] theorem State.entropyRead_pb : (s.entropyRead).pb = s.pb := rfl
@[simp] theorem State.entropyRead_pt : (s.entropyRead).pt = s.pt := rfl
@[simp] theorem State.entropyRead_iv : (s.entropyRead).iv = s.iv := rfl
@[simp] theorem State.entropyRead_chain : (s.entropyRead).chain = s.chain := rfl
@[simp] theorem State.entropyRead_obs : (s.entropyRead).obs = s.obs := rfl
@[simp] theorem State.entropyRead_ivHistory : (s.entropyRead).ivHistory = s.ivHistory := rfl
@[simp] theorem State.entropyRead_clockPort : (s.entropyRead).clockPort = s.clockPort := rfl
@[simp] theorem State.entropyRead_clockReads : (s.entropyRead).clockReads = s.clockReads := rfl
@[simp] theorem State.entropyRead_entropyPort : (s.entropyRead).entropyPort = s.entropyPort.tail := rfl
@[simp] theorem State.entropyRead_entropyReads : (s.entropyRead).entropyReads = s.entropyReads + 1 := rfl
@[simp] theorem State.entropyRead_inputs : (s.entropyRead).inputs = s.inputs := rfl
@[simp] theorem State.entropyRead_answers : (s.entropyRead).answers = s.answers := rfl
@[simp] theorem State.entropyRead_epoch : (s.entropyRead).epoch = s.epoch := rfl
@[simp] theorem State.entropyRead_resets : (s.entropyRead).resets = s.resets := rfl

@[simp] theorem State.recordIv_cfg (x : Block) : (s.recordIv x).cfg = s.cfg := rfl
@[simp] theorem State.recordIv_status (x : Block) : (s.recordIv x).status = s.status := rfl
@[simp] theorem State.recordIv_evKind (x : Block) : (s.recordIv x).evKind = s.evKind := rfl
@[simp] theorem State.recordIv_encKind (x : Block) : (s.recordIv x).encKind = s.encKind := rfl
@[simp] theorem State.recordIv_keyLen (x : Block) : (s.recordIv x).keyLen = s.keyLen := rfl
@[simp] theorem State.recordIv_crcDin (x : Block) : (s.recordIv x).crcDin = s.crcDin := rfl
@[simp] theorem State.recordIv_crc (x : Block) : (s.recordIv x).crc = s.crc := rfl
@[simp] theorem State.recordIv_crcStart (x : Block) : (s.recordIv x).crcStart = s.crcStart := rfl
@[simp] theorem State.recordIv_crcEnd (x : Block) : (s.recordIv x).crcEnd = s.crcEnd := rfl
@[simp] theorem State.recordIv_frameLen (x : Block) : (s.recordIv x).frameLen = s.frameLen := rfl
@[simp] theorem State.recordIv_pktLen (x : Block) : (s.recordIv x).pktLen = s.pktLen := rfl
@[simp] theorem State.recordIv_key (x : Block) : (s.recordIv x).key = s.key := rfl
@[simp] theorem State.recordIv_ev (x : Block) : (s.recordIv x).ev = s.ev := rfl
@[simp] theorem State.recordIv_fb (x : Block) : (s.recordIv x).fb = s.fb := rfl
@[simp] theorem State.recordIv_pb (x : Block) : (s.recordIv x).pb = s.pb := rfl
@[simp] theorem State.recordIv_pt (x : Block) : (s.recordIv x).pt = s.pt := rfl
@[simp] theorem State.recordIv_iv (x : Block) : (s.recordIv x).iv = s.iv := rfl
@[simp] theorem State.recordIv_chain (x : Block) : (s.recordIv x).chain = s.chain := rfl
@[simp] theorem State.recordIv_obs (x : Block) : (s.recordIv x).obs = s.obs := rfl
@[simp] theorem State.recordIv_ivHistory (x : Block) : (s.recordIv x).ivHistory = if x ∈ s.ivHistory then s.ivHistory else x :: s.ivHistory := rfl
@[simp] theorem State.recordIv_clockPort (x : Block) : (s.recordIv x).clockPort = s.clockPort := rfl
@[simp] theorem State.recordIv_clockReads (x : Block) : (s.recordIv x).clockReads = s.clockReads := rfl
@[simp] theorem State.recordIv_entropyPort (x : Block) : (s.recordIv x).entropyPort = s.entropyPort := rfl
@[simp] theorem State.recordIv_entropyReads (x : Block) : (s.recordIv x).entropyReads = s.entropyReads := rfl
@[simp] theorem State.recordIv_inputs (x : Block) : (s.recordIv x).inputs = s.inputs := rfl
@[simp] theorem State.recordIv_answers (x : Block) : (s.recordIv x).answers = s.answers := rfl
@[simp] theorem State.recordIv_epoch (x : Block) : (s.recordIv x).epoch = s.epoch := rfl
@[simp] theorem State.recordIv_resets (x : Block) : (s.recordIv x).resets = s.resets := rfl

@[simp] theorem State.setFrameLen_cfg (n : Nat) : (s.setFrameLen n).cfg = s.cfg := rfl
@[simp] theorem State.setFrameLen_status (n : Nat) : (s.setFrameLen n).status = s.status := rfl
@[simp] theorem State.setFrameLen_evKind (n : Nat) : (s.setFrameLen n).evKind = s.evKind := rfl
@[simp] theorem State.setFrameLen_encKind (n : Nat) : (s.setFrameLen n).encKind = s.encKind := rfl
@[simp] theorem State.setFrameLen_keyLen (n : Nat) : (s.setFrameLen n).keyLen = s.keyLen := rfl
@[simp] theorem State.setFrameLen_crcDin (n : Nat) : (s.setFrameLen n).crcDin = s.crcDin := rfl
@[simp] theorem State.setFrameLen_crc (n : Nat) : (s.setFrameLen n).crc = s.crc := rfl
@[simp] theorem State.setFrameLen_crcStart (n : Nat) : (s.setFrameLen n).crcStart = s.crcStart := rfl
@[simp] theorem State.setFrameLen_crcEnd (n : Nat) : (s.setFrameLen n).crcEnd = s.crcEnd := rfl
@[simp] theorem State.setFrameLen_frameLen (n : Nat) : (s.setFrameLen n).frameLen = BitVec.ofNat 16 n := rfl
@[simp] theorem State.setFrameLen_pktLen (n : Nat) : (s.setFrameLen n).pktLen = s.pktLen := rfl
@[simp] theorem State.setFrameLen_key (n : Nat) : (s.setFrameLen n).key = s.key := rfl
@[simp] theorem State.setFrameLen_ev (n : Nat) : (s.setFrameLen n).ev = s.ev := rfl
@[simp] theorem State.setFrameLen_fb (n : Nat) : (s.setFrameLen n).fb = s.fb := rfl
@[simp] theorem State.setFrameLen_pb (n : Nat) : (s.setFrameLen n).pb = s.pb := rfl
@[simp] theorem State.setFrameLen_pt (n : Nat) : (s.setFrameLen n).pt = s.pt := rfl
@[simp] theorem State.setFrameLen_iv (n : Nat) : (s.setFrameLen n).iv = s.iv := rfl
@[simp] theorem State.setFrameLen_chain (n : Nat) : (s.setFrameLen n).chain = s.chain := rfl
@[simp] theorem State.setFrameLen_obs (n : Nat) : (s.setFrameLen n).obs = s.obs := rfl
@[simp] theorem State.setFrameLen_ivHistory (n : Nat) : (s.setFrameLen n).ivHistory = s.ivHistory := rfl
@[simp] theorem State.setFrameLen_clockPort (n : Nat) : (s.setFrameLen n).clockPort = s.clockPort := rfl
@[simp] theorem State.setFrameLen_clockReads (n : Nat) : (s.setFrameLen n).clockReads = s.clockReads := rfl
@[simp] theorem State.setFrameLen_entropyPort (n : Nat) : (s.setFrameLen n).entropyPort = s.entropyPort := rfl
@[simp] theorem State.setFrameLen_entropyReads (n : Nat) : (s.setFrameLen n).entropyReads = s.entropyReads := rfl
@[simp] theorem State.setFrameLen_inputs (n : Nat) : (s.setFrameLen n).inputs = s.inputs := rfl
@[simp] theorem State.setFrameLen_answers (n : Nat) : (s.setFrameLen n).answers = s.answers := rfl
@[simp] theorem State.setFrameLen_epoch (n : Nat) : (s.setFrameLen n).epoch = s.epoch + 1 := rfl
@[simp] theorem State.setFrameLen_resets (n : Nat) : (s.setFrameLen n).resets = s.resets := rfl

@[simp] theorem State.setPktLen_cfg (n : Nat) : (s.setPktLen n).cfg = s.cfg := rfl
@[simp] theorem State.setPktLen_status (n : Nat) : (s.setPktLen n).status = s.status := rfl
@[simp] theorem State.setPktLen_evKind (n : Nat) : (s.setPktLen n).evKind = s.evKind := rfl
@[simp] theorem State.setPktLen_encKind (n : Nat) : (s.setPktLen n).encKind = s.encKind := rfl
@[simp] theorem State.setPktLen_keyLen (n : Nat) : (s.setPktLen n).keyLen = s.keyLen := rfl
@[simp] theorem State.setPktLen_crcDin (n : Nat) : (s.setPktLen n).crcDin = s.crcDin := rfl
@[simp] theorem State.setPktLen_crc (n : Nat) : (s.setPktLen n).crc = s.crc := rfl
@[simp] theorem State.setPktLen_crcStart (n : Nat) : (s.setPktLen n).crcStart = s.crcStart := rfl
@[simp] theorem State.setPktLen_crcEnd (n : Nat) : (s.setPktLen n).crcEnd = s.crcEnd := rfl
@[simp] theorem State.setPktLen_frameLen (n : Nat) : (s.setPktLen n).frameLen = s.frameLen := rfl
@[simp] theorem State.setPktLen_pktLen (n : Nat) : (s.setPktLen n).pktLen = BitVec.ofNat 16 n := rfl
@[simp] theorem State.setPktLen_key (n : Nat) : (s.setPktLen n).key = s.key := rfl
@[simp] theorem State.setPktLen_ev (n : Nat) : (s.setPktLen n).ev = s.ev := rfl
@[simp] theorem State.setPktLen_fb (n : Nat) : (s.setPktLen n).fb = s.fb := rfl
@[simp] theorem State.setPktLen_pb (n : Nat) : (s.setPktLen n).pb = s.pb := rfl
@[simp] theorem State.setPktLen_pt (n : Nat) : (s.setPktLen n).pt = s.pt := rfl
@[simp] theorem State.setPktLen_iv (n : Nat) : (s.setPktLen n).iv = s.iv := rfl
@[simp] theorem State.setPktLen_chain (n : Nat) : (s.setPktLen n).chain = s.chain := rfl
@[simp] theorem State.setPktLen_obs (n : Nat) : (s.setPktLen n).obs = s.obs := rfl
@[simp] theorem State.setPktLen_ivHistory (n : Nat) : (s.setPktLen n).ivHistory = s.ivHistory := rfl
@[simp] theorem State.setPktLen_clockPort (n : Nat) : (s.setPktLen n).clockPort = s.clockPort := rfl
@[simp] theorem State.setPktLen_clockReads (n : Nat) : (s.setPktLen n).clockReads = s.clockReads := rfl
@[simp] theorem State.setPktLen_entropyPort (n : Nat) : (s.setPktLen n).entropyPort = s.entropyPort := rfl
@[simp] theorem State.setPktLen_entropyReads (n : Nat) : (s.setPktLen n).entropyReads = s.entropyReads := rfl
@[simp] theorem State.setPktLen_inputs (n : Nat) : (s.setPktLen n).inputs = s.inputs := rfl
@[simp] theorem State.setPktLen_answers (n : Nat) : (s.setPktLen n).answers = s.answers := rfl
@[simp] theorem State.setPktLen_epoch (n : Nat) : (s.setPktLen n).epoch = s.epoch + 1 := rfl
@[simp] theorem State.setPktLen_resets (n : Nat) : (s.setPktLen n).resets = s.resets := rfl

@[simp] theorem State.put_cfg (b : Buffer) (a : Nat) (bs : List Byte) : (s.put b a bs).cfg = s.cfg := by cases b <;> rfl
@[simp] theorem State.put_status (b : Buffer) (a : Nat) (bs : List Byte) : (s.put b a bs).status = s.status := by cases b <;> rfl
@[simp] theorem State.put_evKind (b : Buffer) (a : Nat) (bs : List Byte) : (s.put b a bs).evKind = s.evKind := by cases b <;> rfl
@[simp] theorem State.put_encKind (b : Buffer) (a : Nat) (bs : List Byte) : (s.put b a bs).encKind = s.encKind := by cases b <;> rfl
@[simp] theorem State.put_keyLen (b : Buffer) (a : Nat) (bs : List Byte) : (s.put b a bs).keyLen = s.keyLen := by cases b <;> rfl
@[simp] theorem State.put_crcDin (b : Buffer) (a : Nat) (bs : List Byte) : (s.put b a bs).crcDin = s.crcDin := by cases b <;> rfl
@[simp] theorem State.put_crc (b : Buffer) (a : Nat) (bs : List Byte) : (s.put b a bs).crc = s.crc := by cases b <;> rfl
@[simp] theorem State.put_crcStart (b : Buffer) (a : Nat) (bs : List Byte) : (s.put b a bs).crcStart = s.crcStart := by cases b <;> rfl
@[simp] theorem State.put_crcEnd (b : Buffer) (a : Nat) (bs : List Byte) : (s.put b a bs).crcEnd = s.crcEnd := by cases b <;> rfl
@[simp] theorem State.put_frameLen (b : Buffer) (a : Nat) (bs : List Byte) : (s.put b a bs).frameLen = s.frameLen := by cases b <;> rfl
@[simp] theorem State.put_pktLen (b : Buffer) (a : Nat) (bs : List Byte) : (s.put b a bs).pktLen = s.pktLen := by cases b <;> rfl
@[simp] theorem State.put_obs (b : Buffer) (a : Nat) (bs : List Byte) : (s.put b a bs).obs = s.obs := by cases b <;> rfl
@[simp] theorem State.put_ivHistory (b : Buffer) (a : Nat) (bs : List Byte) : (s.put b a bs).ivHistory = s.ivHistory := by cases b <;> rfl
@[simp] theorem State.put_clockPort (b : Buffer) (a : Nat) (bs : List Byte) : (s.put b a bs).clockPort = s.clockPort := by cases b <;> rfl
@[simp] theorem State.put_clockReads (b : Buffer) (a : Nat) (bs : List Byte) : (s.put b a bs).clockReads = s.clockReads := by cases b <;> rfl
@[simp] theorem State.put_entropyPort (b : Buffer) (a : Nat) (bs : List Byte) : (s.put b a bs).entropyPort = s.entropyPort := by cases b <;> rfl
@[simp] theorem State.put_entropyReads (b : Buffer) (a : Nat) (bs : List Byte) : (s.put b a bs).entropyReads = s.entropyReads := by cases b <;> rfl
@[simp] theorem State.put_inputs (b : Buffer) (a : Nat) (bs : List Byte) : (s.put b a bs).inputs = s.inputs := by cases b <;> rfl
@[simp] theorem State.put_answers (b : Buffer) (a : Nat) (bs : List Byte) : (s.put b a bs).answers = s.answers := by cases b <;> rfl
@[simp] theorem State.put_epoch (b : Buffer) (a : Nat) (bs : List Byte) : (s.put b a bs).epoch = s.epoch := by cases b <;> rfl
@[simp] theorem State.put_resets (b : Buffer) (a : Nat) (bs : List Byte) : (s.put b a bs).resets = s.resets := by cases b <;> rfl

@[simp] theorem State.put_key_key (a : Nat) (bs : List Byte) : (s.put .key a bs).key = s.key.storeAll a bs := rfl
@[simp] theorem State.put_key_ev (a : Nat) (bs : List Byte) : (s.put .key a bs).ev = s.ev := rfl
@[simp] theorem State.put_key_fb (a : Nat) (bs : List Byte) : (s.put .key a bs).fb = s.fb := rfl
@[simp] theorem State.put_key_pb (a : Nat) (bs : List Byte) : (s.put .key a bs).pb = s.pb := rfl
@[simp] theorem State.put_key_pt (a : Nat) (bs : List Byte) : (s.put .key a bs).pt = s.pt := rfl
@[simp] theorem State.put_key_iv (a : Nat) (bs : List Byte) : (s.put .key a bs).iv = s.iv := rfl
@[simp] theorem State.put_key_chain (a : Nat) (bs : List Byte) : (s.put .key a bs).chain = s.chain := rfl
@[simp] theorem State.put_ev_key (a : Nat) (bs : List Byte) : (s.put .ev a bs).key = s.key := rfl
@[simp] theorem State.put_ev_ev (a : Nat) (bs : List Byte) : (s.put .ev a bs).ev = s.ev.storeAll a bs := rfl
@[simp] theorem State.put_ev_fb (a : Nat) (bs : List Byte) : (s.put .ev a bs).fb = s.fb := rfl
@[simp] theorem State.put_ev_pb (a : Nat) (bs : List Byte) : (s.put .ev a bs).pb = s.pb := rfl
@[simp] theorem State.put_ev_pt (a : Nat) (bs : List Byte) : (s.put .ev a bs).pt = s.pt := rfl
@[simp] theorem State.put_ev_iv (a : Nat) (bs : List Byte) : (s.put .ev a bs).iv = s.iv := rfl
@[simp] theorem State.put_ev_chain (a : Nat) (bs : List Byte) : (s.put .ev a bs).chain = s.chain := rfl
@[simp] theorem State.put_fb_key (a : Nat) (bs : List Byte) : (s.put .fb a bs).key = s.key := rfl
@[simp] theorem State.put_fb_ev (a : Nat) (bs : List Byte) : (s.put .fb a bs).ev = s.ev := rfl
@[simp] theorem State.put_fb_fb (a : Nat) (bs : List Byte) : (s.put .fb a bs).fb = s.fb.storeAll a bs := rfl
@[simp] theorem State.put_fb_pb (a : Nat) (bs : List Byte) : (s.put .fb a bs).pb = s.pb := rfl
@[simp] theorem State.put_fb_pt (a : Nat) (bs : List Byte) : (s.put .fb a bs).pt = s.pt := rfl
@[simp] theorem State.put_fb_iv (a : Nat) (bs : List Byte) : (s.put .fb a bs).iv = s.iv := rfl
@[simp] theorem State.put_fb_chain (a : Nat) (bs : List Byte) : (s.put .fb a bs).chain = s.chain := rfl
@[simp] theorem State.put_pb_key (a : Nat) (bs : List Byte) : (s.put .pb a bs).key = s.key := rfl
@[simp] theorem State.put_pb_ev (a : Nat) (bs : List Byte) : (s.put .pb a bs).ev = s.ev := rfl
@[simp] theorem State.put_pb_fb (a : Nat) (bs : List Byte) : (s.put .pb a bs).fb = s.fb := rfl
@[simp] theorem State.put_pb_pb (a : Nat) (bs : List Byte) : (s.put .pb a bs).pb = s.pb.storeAll a bs := rfl
@[simp] theorem State.put_pb_pt (a : Nat) (bs : List Byte) : (s.put .pb a bs).pt = s.pt := rfl
@[simp] theorem State.put_pb_iv (a : Nat) (bs : List Byte) : (s.put .pb a bs).iv = s.iv := rfl
@[simp] theorem State.put_pb_chain (a : Nat) (bs : List Byte) : (s.put .pb a bs).chain = s.chain := rfl
@[simp] theorem State.put_pt_key (a : Nat) (bs : List Byte) : (s.put .pt a bs).key = s.key := rfl
@[simp] theorem State.put_pt_ev (a : Nat) (bs : List Byte) : (s.put .pt a bs).ev = s.ev := rfl
@[simp] theorem State.put_pt_fb (a : Nat) (bs : List Byte) : (s.put .pt a bs).fb = s.fb := rfl
@[simp] theorem State.put_pt_pb (a : Nat) (bs : List Byte) : (s.put .pt a bs).pb = s.pb := rfl
@[simp] theorem State.put_pt_pt (a : Nat) (bs : List Byte) : (s.put .pt a bs).pt = s.pt.storeAll a bs := rfl
@[simp] theorem State.put_pt_iv (a : Nat) (bs : List Byte) : (s.put .pt a bs).iv = s.iv := rfl
@[simp] theorem State.put_pt_chain (a : Nat) (bs : List Byte) : (s.put .pt a bs).chain = s.chain := rfl
@[simp] theorem State.put_iv_key (a : Nat) (bs : List Byte) : (s.put .iv a bs).key = s.key := rfl
@[simp] theorem State.put_iv_ev (a : Nat) (bs : List Byte) : (s.put .iv a bs).ev = s.ev := rfl
@[simp] theorem State.put_iv_fb (a : Nat) (bs : List Byte) : (s.put .iv a bs).fb = s.fb := rfl
@[simp] theorem State.put_iv_pb (a : Nat) (bs : List Byte) : (s.put .iv a bs).pb = s.pb := rfl
@[simp] theorem State.put_iv_pt (a : Nat) (bs : List Byte) : (s.put .iv a bs).pt = s.pt := rfl
@[simp] theorem State.put_iv_iv (a : Nat) (bs : List Byte) : (s.put .iv a bs).iv = s.iv.storeAll a bs := rfl
@[simp] theorem State.put_iv_chain (a : Nat) (bs : List Byte) : (s.put .iv a bs).chain = s.chain := rfl
@[simp] theorem State.put_chain_key (a : Nat) (bs : List Byte) : (s.put .chain a bs).key = s.key := rfl
@[simp] theorem State.put_chain_ev (a : Nat) (bs : List Byte) : (s.put .chain a bs).ev = s.ev := rfl
@[simp] theorem State.put_chain_fb (a : Nat) (bs : List Byte) : (s.put .chain a bs).fb = s.fb := rfl
@[simp] theorem State.put_chain_pb (a : Nat) (bs : List Byte) : (s.put .chain a bs).pb = s.pb := rfl
@[simp] theorem State.put_chain_pt (a : Nat) (bs : List Byte) : (s.put .chain a bs).pt = s.pt := rfl
@[simp] theorem State.put_chain_iv (a : Nat) (bs : List Byte) : (s.put .chain a bs).iv = s.iv := rfl
@[simp] theorem State.put_chain_chain (a : Nat) (bs : List Byte) : (s.put .chain a bs).chain = s.chain.storeAll a bs := rfl

end Sys2Proof.Machine
end

