-- ==== Sys2Proof/Laws/Ops.lean ====
section
/-! SUPPORT. What the shared operations do: reading a buffer byte after a write, slices, byte order, and what error
entry can do. -/

namespace Sys2Proof.Machine

/-! ### Byte order -/

@[simp] theorem length_be16 (v : Half) : (be16 v).length = 2 := rfl
@[simp] theorem length_be32 (v : Word32) : (be32 v).length = 4 := rfl

/-- `u16` is the inverse of `be16` (00_scope.md R18). -/
@[simp] theorem hi8_u16 (x y : Byte) : hi8 (u16 x y) = x := by
  apply BitVec.eq_of_getLsbD_eq; intro i hi
  simp only [hi8, u16, BitVec.getLsbD_extractLsb', BitVec.getLsbD_append, hi, decide_true, Bool.true_and]
  rw [if_neg (by omega)]; congr 1; omega

@[simp] theorem lo8_u16 (x y : Byte) : lo8 (u16 x y) = y := by
  apply BitVec.eq_of_getLsbD_eq; intro i hi
  simp only [lo8, u16, BitVec.getLsbD_extractLsb', BitVec.getLsbD_append, hi, decide_true, Bool.true_and]
  rw [if_pos (by omega)]; congr 1; omega

@[simp] theorem u16_hi8_lo8 (v : Half) : u16 (hi8 v) (lo8 v) = v := by
  apply BitVec.eq_of_getLsbD_eq; intro i hi
  simp only [hi8, lo8, u16, BitVec.getLsbD_extractLsb', BitVec.getLsbD_append]
  split
  · simp_all
  · rw [decide_eq_true (by omega), Bool.true_and]; congr 1; omega

/-- A 16-bit value read from EV, written most significant byte first, gives back the two bytes. -/
@[simp] theorem be16_u16 (x y : Byte) : be16 (u16 x y) = [x, y] := by simp [be16]

/-- The same of a 32-bit value. -/
@[simp] theorem be32_u32 (x y z w : Byte) : be32 (u32 x y z w) = [x, y, z, w] := by
  simp only [be32, u32]
  congr 1
  · apply BitVec.eq_of_getLsbD_eq; intro i hi
    simp only [BitVec.getLsbD_extractLsb', BitVec.getLsbD_append, hi, decide_true, Bool.true_and]
    rw [if_neg (by omega), if_neg (by omega), if_neg (by omega)]; congr 1; omega
  congr 1
  · apply BitVec.eq_of_getLsbD_eq; intro i hi
    simp only [BitVec.getLsbD_extractLsb', BitVec.getLsbD_append, hi, decide_true, Bool.true_and]
    rw [if_neg (by omega), if_neg (by omega), if_pos (by omega)]; congr 1; omega
  congr 1
  · apply BitVec.eq_of_getLsbD_eq; intro i hi
    simp only [BitVec.getLsbD_extractLsb', BitVec.getLsbD_append, hi, decide_true, Bool.true_and]
    rw [if_neg (by omega), if_pos (by omega)]; congr 1; omega
  congr 1
  · apply BitVec.eq_of_getLsbD_eq; intro i hi
    simp only [BitVec.getLsbD_extractLsb', BitVec.getLsbD_append, hi, decide_true, Bool.true_and]
    rw [if_pos (by omega)]; congr 1; omega

/-! ### Blocks -/

@[simp] theorem Block.length_toList (b : Block) : b.toList.length = 16 := by simp

@[simp] theorem Block.toList_ofBytes {l : List Byte} (h : l.length = 16) : (Block.ofBytes l).toList = l := by
  simp [Block.ofBytes, Vector.toList, h]

@[simp] theorem Block.ofBytes_toList (b : Block) : Block.ofBytes b.toList = b :=
  Vector.toList_inj.1 (Block.toList_ofBytes (Block.length_toList b))

@[simp] theorem length_xorBytes (x y : List Byte) : (xorBytes x y).length = min x.length y.length := by
  simp [xorBytes]

/-! ### Reading and writing buffer bytes -/

@[simp] theorem State.buffer_setBuffer (s : State) (b b' : Buffer) (m : Memory) :
    (s.setBuffer b m).buffer b' = if b' = b then m else s.buffer b' := by
  cases b <;> cases b' <;> rfl

theorem State.buffer_put (s : State) (b b' : Buffer) (a : Nat) (bs : List Byte) :
    (s.put b a bs).buffer b' = if b' = b then (s.buffer b).storeAll a bs else s.buffer b' := by
  simp [State.put]

/-- The one read-after-write law: the bytes put at their offsets, every other byte of every buffer as before. -/
theorem State.byteAt_put (s : State) (b b' : Buffer) (a : Nat) (bs : List Byte) (x : Nat) :
    (s.put b a bs).byteAt b' x =
      if b' = b ∧ a ≤ x ∧ x < a + bs.length then bs.getD (x - a) 0 else s.byteAt b' x := by
  simp only [State.byteAt, State.buffer_put, State.put_resets]
  by_cases hb : b' = b
  · subst hb
    simp only [if_true, true_and, Memory.lookup_storeAll]
    by_cases hx : a ≤ x ∧ x < a + bs.length
    · have : x - a < bs.length := by omega
      simp [hx, this]
    · simp [hx]
  · simp [hb]

/-- A byte inside what was stored. -/
theorem State.byteAt_stored {t : State} {b : Buffer} {m : Memory} {a : Nat} {bs : List Byte}
    (h : t.buffer b = m.storeAll a bs) {x : Nat} (hx : a ≤ x) (hx' : x < a + bs.length) :
    t.byteAt b x = bs.getD (x - a) 0 := by
  have : x - a < bs.length := by omega
  simp [State.byteAt, h, Memory.lookup_storeAll, hx, hx', this]

/-- A byte beside what was stored. -/
theorem State.byteAt_beside {s t : State} {b : Buffer} {a : Nat} {bs : List Byte}
    (h : t.buffer b = (s.buffer b).storeAll a bs) (hr : t.resets = s.resets) {x : Nat}
    (hx : ¬ (a ≤ x ∧ x < a + bs.length)) : t.byteAt b x = s.byteAt b x := by
  simp [State.byteAt, h, hr, Memory.lookup_storeAll, hx]

/-- A byte of a buffer depends on that buffer's cells and the reset draw alone. -/
theorem State.byteAt_congr {s t : State} {b : Buffer} (h : s.buffer b = t.buffer b) (hr : s.resets = t.resets)
    (x : Nat) : s.byteAt b x = t.byteAt b x := by
  simp [State.byteAt, h, hr]

theorem State.bytes_congr {s t : State} {b : Buffer} (h : s.buffer b = t.buffer b) (hr : s.resets = t.resets)
    (a n : Nat) : s.bytes b a n = t.bytes b a n := by
  simp [State.bytes, State.byteAt, h, hr]

@[simp] theorem State.length_bytes (s : State) (b : Buffer) (a n : Nat) : (s.bytes b a n).length = n := by
  simp [State.bytes]

theorem State.getD_bytes (s : State) (b : Buffer) (a n i : Nat) (d : Byte) (h : i < n) :
    (s.bytes b a n).getD i d = s.byteAt b (a + i) := by
  simp [State.bytes, h]

@[simp] theorem State.bytes_zero (s : State) (b : Buffer) (a : Nat) : s.bytes b a 0 = [] := rfl

theorem State.bytes_add (s : State) (b : Buffer) (a n m : Nat) :
    s.bytes b a (n + m) = s.bytes b a n ++ s.bytes b (a + n) m := by
  simp only [State.bytes, List.range_add, List.map_append, List.map_map]
  congr 1
  apply List.map_congr_left
  intro i _
  simp [Nat.add_assoc]

theorem State.bytes_ext {s t : State} {b c : Buffer} {a a' n : Nat}
    (h : ∀ i, i < n → s.byteAt b (a + i) = t.byteAt c (a' + i)) : s.bytes b a n = t.bytes c a' n := by
  apply List.map_congr_left
  intro i hi
  exact h i (by simpa using hi)

/-- A slice is a byte string when each of its bytes is. -/
theorem State.bytes_eq {s : State} {b : Buffer} {a : Nat} {l : List Byte}
    (h : ∀ i, i < l.length → s.byteAt b (a + i) = l.getD i 0) : s.bytes b a l.length = l := by
  apply List.ext_getElem (by simp)
  intro i h1 h2
  have := h i h2
  simp only [State.bytes, List.getElem_map, List.getElem_range, this, List.getD_eq_getElem?_getD]
  simp [h2]

/-- A slice of a slice. -/
theorem State.bytes_slice {s : State} {b : Buffer} {l : List Byte} {n : Nat} (h : s.bytes b 0 n = l) (a k : Nat)
    (hk : a + k ≤ n) : s.bytes b a k = (l.drop a).take k := by
  subst h
  obtain ⟨m, rfl⟩ : ∃ m, n = a + (k + m) := ⟨n - (a + k), by omega⟩
  rw [State.bytes_add, State.bytes_add]
  simp

/-- The slice just written. -/
theorem State.bytes_put_same (s : State) (b : Buffer) (a : Nat) (bs : List Byte) :
    (s.put b a bs).bytes b a bs.length = bs := by
  apply State.bytes_eq
  intro i hi
  rw [State.byteAt_put, if_pos ⟨rfl, by omega, by omega⟩]
  congr 1; omega

/-- A slice beside what is written. -/
theorem State.bytes_put_other (s : State) (b b' : Buffer) (a : Nat) (bs : List Byte) (x n : Nat)
    (h : b' ≠ b ∨ x + n ≤ a ∨ a + bs.length ≤ x) : (s.put b a bs).bytes b' x n = s.bytes b' x n := by
  apply State.bytes_ext
  intro i hi
  rw [State.byteAt_put, if_neg]
  rintro ⟨h1, h2, h3⟩
  rcases h with h | h | h
  · exact h h1
  · omega
  · omega

/-- A buffer written up to `a` and then put at `a` reads as the two byte strings in a row. -/
theorem State.bytes_put_append (s : State) (b : Buffer) (lo n a : Nat) (bs : List Byte) (h : lo + n = a) :
    (s.put b a bs).bytes b lo (n + bs.length) = s.bytes b lo n ++ bs := by
  rw [State.bytes_add, State.bytes_put_other _ _ _ _ _ _ _ (.inr (.inl (by omega))), h, State.bytes_put_same]

/-! ### Error entry -/

/-- Everything error entry can do (60_exceptions.md R266): the code goes to `STATUS.ERR`, a failed BUILD loses its
frame, a failed ENCRYPT its packet, and nothing else of the spec's state moves. -/
theorem State.raise_cases (s : State) (st : Stage) (e : CmdError) :
    s.raise st e =
      { s with
        status := s.statusReserved ++ e.code
        frameLen := if st = .build then 0 else s.frameLen
        pktLen := if st = .encrypt then 0 else s.pktLen
        epoch := if st = .build ∨ st = .encrypt then s.epoch + 1 else s.epoch } := by
  cases st <;> rfl

/-- Error entry after the command's first act: `STATUS` is exactly the code (10_state.md R37; 60_exceptions.md R266). -/
theorem State.raise_of_cleared {s : State} (h : s.status = 0) (st : Stage) (e : CmdError) :
    s.raise st e =
      { s with
        status := e.code.setWidth 8
        frameLen := if st = .build then 0 else s.frameLen
        pktLen := if st = .encrypt then 0 else s.pktLen
        epoch := if st = .build ∨ st = .encrypt then s.epoch + 1 else s.epoch } := by
  have : s.statusReserved ++ e.code = e.code.setWidth 8 := by
    simp only [State.statusReserved, h]
    cases e <;> decide
  rw [State.raise_cases, this]

/-- A command that fails before any other effect (60_exceptions.md R266). -/
theorem State.fail_eq (s : State) (st : Stage) (e : CmdError) :
    s.beginCommand.raise st e =
      { s with
        status := e.code.setWidth 8
        frameLen := if st = .build then 0 else s.frameLen
        pktLen := if st = .encrypt then 0 else s.pktLen
        epoch := if st = .build ∨ st = .encrypt then s.epoch + 1 else s.epoch } :=
  State.raise_of_cleared (s := s.beginCommand) rfl st e

end Sys2Proof.Machine
end

