-- ==== Sys2Proof/Laws/ChecksumEngine.lean ====
section
/-! SUPPORT. CRC_APPEND's range test and its two endings, and what a streamed or split message does to the CRC. -/

namespace Sys2Proof.Machine

variable (s : State)

/-- The range test as three comparisons of natural numbers (41_checksum_engine.md R173). -/
theorem State.crcRangeOk_iff : s.crcRangeOk = true ↔
    s.crcStart.toNat ≤ s.crcEnd.toNat ∧ s.crcEnd.toNat ≤ s.frameLen.toNat ∧
      s.crcEnd.toNat + 2 ≤ fbCap s.cfg := by
  simp [State.crcRangeOk, and_assoc]

/-- Everything CRC_APPEND can do: the CRC appended, or OperandError (41_checksum_engine.md R170, R173). -/
theorem execCrcAppend_cases :
    (s.crcRangeOk = true ∧ execCrcAppend s = .next
      { s with
        status := 0
        crc := crc16 (s.bytes .fb s.crcStart.toNat (s.crcEnd.toNat - s.crcStart.toNat))
        fb := s.fb.storeAll s.crcEnd.toNat
          (be16 (crc16 (s.bytes .fb s.crcStart.toNat (s.crcEnd.toNat - s.crcStart.toNat))))
        frameLen := BitVec.ofNat 16 (s.crcEnd.toNat + 2)
        obs := s.obs ++ [.checksumComputed]
        epoch := s.epoch + 1 }) ∨
    (s.crcRangeOk = false ∧ execCrcAppend s = .next { s with status := 6 }) := by
  unfold execCrcAppend
  cases h : s.crcRangeOk
  · exact .inr ⟨rfl, by rw [if_neg Bool.false_ne_true, State.fail_eq]; rfl⟩
  · exact .inl ⟨rfl, rfl⟩

/-- The CRC of a message in two parts goes on from the CRC of the first. -/
theorem crc16_append (m n : List Byte) : crc16 (m ++ n) = n.foldl crcByte (crc16 m) := by
  simp [crc16, List.foldl_append]

/-- The CRC of the empty message is the initial value (41_checksum_engine.md R165). -/
@[simp] theorem crc16_nil : crc16 [] = crcInitial := rfl

end Sys2Proof.Machine
end

