-- ==== Sys2Proof/Laws/EncryptionWrapper.lean ====
section
/-! SUPPORT. What ENCRYPT's shared operations do, said once: the padded copy, the chaining loop as cipher block
chaining, and which of ENCRYPT's endings is taken. -/

namespace Sys2Proof.Machine

variable (s : State)

@[simp] theorem length_paddedPlain (f : List Byte) :
    (paddedPlain f).length = ceil16 (f.length - 1) := by
  simp only [paddedPlain, List.length_append, List.length_drop, List.length_replicate, ceil16]
  omega

/-- A padded length is a whole number of blocks (00_scope.md R18). -/
theorem ceil16_eq (x : Nat) : 16 * (ceil16 x / 16) = ceil16 x := by
  simp only [ceil16]; omega

/-- The Frame without its packet-type byte. -/
theorem State.frame_drop_one : s.frame.drop 1 = s.bytes .fb 1 s.plainLen := by
  unfold State.frame State.plainLen
  by_cases h : s.frameLen.toNat = 0
  · simp [h]
  · obtain ⟨n, hn⟩ : ∃ n, s.frameLen.toNat = 1 + n := ⟨s.frameLen.toNat - 1, by omega⟩
    rw [hn, State.bytes_add]
    simp

@[simp] theorem State.length_frame : s.frame.length = s.frameLen.toNat := by simp [State.frame]

/-- Loading the plaintext changes PT alone. -/
theorem State.loadPlain_eq : s.loadPlain = { s with pt := s.loadPlain.pt } := rfl

/-- PT holds the padded copy of the Frame without its packet-type byte (42_encryption_wrapper.md R198). -/
theorem State.loadPlain_pt : s.loadPlain.bytes .pt 0 s.paddedLen = paddedPlain s.frame := by
  unfold State.loadPlain paddedPlain
  rw [State.frame_drop_one, State.length_frame]
  have hm : s.frameLen.toNat - 1 = s.plainLen := rfl
  rw [hm]
  have h1 := State.bytes_put_same s .pt 0 (s.bytes .fb 1 s.plainLen)
  rw [State.length_bytes] at h1
  have h2 := State.bytes_put_append (s.put .pt 0 (s.bytes .fb 1 s.plainLen)) .pt 0 s.plainLen s.plainLen
    (List.replicate (s.paddedLen - s.plainLen) 0x00) (by omega)
  rw [h1, List.length_replicate, show s.plainLen + (s.paddedLen - s.plainLen) = s.paddedLen by
    simp only [State.paddedLen, ceil16]; omega] at h2
  exact h2

/-- One block changes PB and CHAIN alone. -/
theorem State.chainBlock_eq (k : Scheme) (j : Nat) : s.chainBlock k j =
    { s with pb := (s.chainBlock k j).pb, chain := (s.chainBlock k j).chain } := rfl

/-- The chaining loop changes PB and CHAIN alone. -/
theorem State.chainBlocks_eq (k : Scheme) (n j : Nat) : s.chainBlocks k n j =
    { s with pb := (s.chainBlocks k n j).pb, chain := (s.chainBlocks k n j).chain } := by
  induction n generalizing s j with
  | zero => rfl
  | succ n ih =>
    rw [State.chainBlocks, ih, State.chainBlock_eq]

/-- The chaining loop writes `PB[1+16j..1+16(j+n))` and no other PB byte. -/
theorem State.chainBlocks_other (k : Scheme) (n j x : Nat) (h : x < 1 + 16 * j ∨ 1 + 16 * (j + n) ≤ x) :
    (s.chainBlocks k n j).byteAt .pb x = s.byteAt .pb x := by
  induction n generalizing s j with
  | zero => rfl
  | succ n ih =>
    rw [State.chainBlocks, ih _ _ (by omega)]
    unfold State.chainBlock
    rw [State.byteAt_put, if_neg (by simp), State.byteAt_put, if_neg (by
      rw [Block.length_toList]; omega)]

/-- The chaining loop is cipher block chaining over the blocks of PT, starting from the block in CHAIN
(42_encryption_wrapper.md R202). -/
theorem State.chainBlocks_cbc (k : Scheme) (n j : Nat) (prev : Block)
    (h : s.bytes .chain 0 16 = prev.toList) :
    (s.chainBlocks k n j).bytes .pb (1 + 16 * j) (16 * n) =
      joinBlocks (cbcEncrypt (blockEnc s.cfg.cipher k (s.keyFor k)) prev
        (splitBlocks n (s.bytes .pt (16 * j) (16 * n)))) := by
  induction n generalizing s j prev with
  | zero => rfl
  | succ n ih =>
    have hp : s.bytes .pt (16 * j) (16 * (n + 1)) =
        s.bytes .pt (16 * j) 16 ++ s.bytes .pt (16 * (j + 1)) (16 * n) := by
      rw [show 16 * (n + 1) = 16 + 16 * n by omega, State.bytes_add,
        show 16 * j + 16 = 16 * (j + 1) by omega]
    have hx : xorBlock (Block.ofBytes (s.bytes .pt (16 * j) 16)) prev =
        Block.ofBytes (xorBytes (s.bytes .pt (16 * j) 16) (s.bytes .chain 0 16)) := by
      rw [xorBlock, h, Block.toList_ofBytes (by simp)]
    rw [hp]
    simp only [splitBlocks, List.take_left', List.drop_left', State.length_bytes, cbcEncrypt, hx]
    generalize hc : blockEnc s.cfg.cipher k (s.keyFor k)
      (Block.ofBytes (xorBytes (s.bytes .pt (16 * j) 16) (s.bytes .chain 0 16))) = c
    have ht : s.chainBlock k j = (s.put .pb (1 + 16 * j) c.toList).put .chain 0 c.toList := by
      unfold State.chainBlock
      rw [← hc]; rfl
    have hchain : (s.chainBlock k j).bytes .chain 0 16 = c.toList := by
      rw [ht]
      have := State.bytes_put_same (s.put .pb (1 + 16 * j) c.toList) .chain 0 c.toList
      rwa [Block.length_toList] at this
    have hcfg : (s.chainBlock k j).cfg = s.cfg := rfl
    have hkey : (s.chainBlock k j).keyFor k = s.keyFor k :=
      State.bytes_congr rfl rfl _ _
    have hpt : (s.chainBlock k j).bytes .pt (16 * (j + 1)) (16 * n) = s.bytes .pt (16 * (j + 1)) (16 * n) :=
      State.bytes_congr rfl rfl _ _
    have hrest := ih (s.chainBlock k j) (j + 1) c hchain
    rw [hcfg, hkey, hpt] at hrest
    have hfirst : (s.chainBlocks k (n + 1) j).bytes .pb (1 + 16 * j) 16 = c.toList := by
      have : (s.chainBlocks k (n + 1) j).bytes .pb (1 + 16 * j) 16 =
          (s.put .pb (1 + 16 * j) c.toList).bytes .pb (1 + 16 * j) 16 := by
        apply State.bytes_ext
        intro i hi
        rw [State.chainBlocks, State.chainBlocks_other _ _ _ _ _ (.inl (by omega)), ht,
          State.byteAt_put, if_neg (by simp)]
      rw [this]
      have := State.bytes_put_same s .pb (1 + 16 * j) c.toList
      rwa [Block.length_toList] at this
    rw [show 16 * (n + 1) = 16 + 16 * n by omega, State.bytes_add, hfirst]
    rw [show 1 + 16 * j + 16 = 1 + 16 * (j + 1) by omega]
    rw [State.chainBlocks, hrest]
    rfl

/-- Which PB bytes have been written after the chaining loop. -/
theorem State.chainBlocks_written (k : Scheme) (n j x : Nat) :
    ((s.chainBlocks k n j).pb.lookup x).isSome = true ↔
      (1 + 16 * j ≤ x ∧ x < 1 + 16 * (j + n)) ∨ (s.pb.lookup x).isSome = true := by
  induction n generalizing s j with
  | zero =>
    show (s.pb.lookup x).isSome = true ↔ _
    constructor
    · exact .inr
    · rintro (h | h)
      · omega
      · exact h
  | succ n ih =>
    rw [State.chainBlocks, ih]
    have : (((s.chainBlock k j).pb).lookup x).isSome = true ↔
        (1 + 16 * j ≤ x ∧ x < 1 + 16 * j + 16) ∨ (s.pb.lookup x).isSome = true := by
      unfold State.chainBlock
      simp only [State.put_chain_pb, State.put_pb_pb, Memory.isSome_storeAll, Block.length_toList]
    rw [this]
    by_cases h : (s.pb.lookup x).isSome = true
    · simp [h]
    · simp only [h]; simp only [Bool.false_eq_true, or_false]; omega

/-- The chaining loop keeps PB's canonical form and its bound. -/
theorem State.chainBlocks_form (k : Scheme) (n j b : Nat) (h : s.pb.wf = true) (hb : s.pb.within b = true)
    (hn : 1 + 16 * (j + n) ≤ b) :
    (s.chainBlocks k n j).pb.wf = true ∧ (s.chainBlocks k n j).pb.within b = true := by
  induction n generalizing s j with
  | zero => exact ⟨h, hb⟩
  | succ n ih =>
    rw [State.chainBlocks]
    apply ih
    · exact Memory.wf_storeAll h _ _
    · exact Memory.within_storeAll hb _ _ (by rw [Block.length_toList]; omega)
    · omega

/-- Which scheme an `ENC_KIND` names (30_encoding.md R111). -/
theorem schemeOfKind_cases (kind : Byte) :
    3 < kind.toNat ∨ (kind = 0 ∧ schemeOfKind kind = none) ∨
      ∃ k, schemeOfKind kind = some k ∧ schemeId k = kind := by
  revert kind; decide

/-- ENCRYPT ends in one of six ways, tested in this order (60_exceptions.md R265). -/
theorem State.performEncrypt_cases :
    (s.frameLen = 0 ∧ s.performEncrypt = s.beginCommand.raise .encrypt .operand) ∨
    (s.frameLen ≠ 0 ∧ 3 < s.encKind.toNat ∧
      s.performEncrypt = s.beginCommand.raise .encrypt .unsupportedScheme) ∨
    (s.frameLen ≠ 0 ∧ s.encKind = 0 ∧ s.performEncrypt = s.beginCommand.passThrough) ∨
    (∃ k, s.frameLen ≠ 0 ∧ schemeOfKind s.encKind = some k ∧ s.keyLen.toNat ≠ schemeKeyLength k ∧
      s.performEncrypt = s.beginCommand.raise .encrypt .invalidKey) ∨
    (∃ k, s.frameLen ≠ 0 ∧ schemeOfKind s.encKind = some k ∧ s.keyLen.toNat = schemeKeyLength k ∧
      s.entropyDraw = none ∧ s.performEncrypt =
        (s.beginCommand.loadPlain.entropyRead.raise .encrypt .entropySource).forgetWork) ∨
    (∃ k iv, s.frameLen ≠ 0 ∧ schemeOfKind s.encKind = some k ∧ s.keyLen.toNat = schemeKeyLength k ∧
      s.entropyDraw = some iv ∧ s.performEncrypt = s.beginCommand.sealFrame k iv) := by
  by_cases h0 : s.frameLen = 0
  · exact .inl ⟨h0, if_pos h0⟩
  have e0 : s.performEncrypt = _ := if_neg h0
  by_cases h1 : 3 < s.encKind.toNat
  · exact .inr (.inl ⟨h0, h1, e0.trans (if_pos h1)⟩)
  have e1 := e0.trans (if_neg h1)
  rcases schemeOfKind_cases s.encKind with h | ⟨hk, hn⟩ | ⟨k, hk, -⟩
  · exact absurd h h1
  · exact .inr (.inr (.inl ⟨h0, hk, by rw [e1]; simp only [State.beginCommand_encKind, hn]⟩))
  simp only [State.beginCommand_encKind, hk] at e1
  by_cases h2 : s.keyLen.toNat = schemeKeyLength k
  · have e2 : s.performEncrypt = s.beginCommand.encryptFrame k := e1.trans (if_pos h2)
    have hd : s.beginCommand.entropyDraw = s.entropyDraw := rfl
    simp only [State.encryptFrame, hd] at e2
    cases hdraw : s.entropyDraw with
    | none => exact .inr (.inr (.inr (.inr (.inl ⟨k, h0, hk, h2, rfl, by rw [e2, hdraw]⟩))))
    | some iv => exact .inr (.inr (.inr (.inr (.inr ⟨k, iv, h0, hk, h2, rfl, by rw [e2, hdraw]⟩))))
  · exact .inr (.inr (.inr (.inl ⟨k, h0, hk, h2, e1.trans (if_neg h2)⟩)))

/-- Everything the pass-through does (42_encryption_wrapper.md R196). -/
theorem State.passThrough_eq : s.passThrough =
    { s with pb := s.pb.storeAll 0 s.frame, pktLen := s.frameLen, epoch := s.epoch + 1 } := by
  have : BitVec.ofNat 16 s.frameLen.toNat = s.frameLen := by simp
  show ({ s with pb := _, pktLen := BitVec.ofNat 16 s.frameLen.toNat, epoch := _ } : State) = _
  rw [this]
  rfl

/-- An entropy failure changes STATUS, PKT_LEN and the port (42_encryption_wrapper.md R205). -/
theorem State.entropyFailure_eq :
    (s.beginCommand.loadPlain.entropyRead.raise .encrypt .entropySource).forgetWork =
    { s with
      status := 5, pktLen := 0, pt := [], iv := [], chain := []
      entropyPort := s.entropyPort.tail, entropyReads := s.entropyReads + 1
      epoch := s.epoch + 1 } := by
  rw [State.raise_of_cleared rfl]
  rfl

/-- The packet's bytes: identifier and IV around what the chaining loop wrote (42_encryption_wrapper.md R204). -/
theorem State.assemble_pb (k : Scheme) : (s.assemble k).pb =
    ((s.chainBlocks k (s.paddedLen / 16) 0).pb.storeAll 0 [schemeId k]).storeAll (1 + s.paddedLen)
      ((s.chainBlocks k (s.paddedLen / 16) 0).bytes .iv 0 16) := by
  unfold State.assemble
  simp only [State.emit_pb, State.setPktLen_pb, State.put_pb_pb]

/-- What assembly changes (42_encryption_wrapper.md R204). -/
theorem State.assemble_eq (k : Scheme) : s.assemble k =
    { s with
      pb := (s.assemble k).pb
      chain := (s.chainBlocks k (s.paddedLen / 16) 0).chain
      pktLen := BitVec.ofNat 16 (17 + s.paddedLen)
      obs := s.obs ++ [.encryptionApplied]
      epoch := s.epoch + 1 } := by
  have finish : ∀ (t : State) (a n : Nat) (x y : List Byte) (e : ObsEvent) (p c : Memory),
      t = { s with pb := p, chain := c } →
      (((t.put .pb 0 x).put .pb a y).setPktLen n).emit e =
        { s with
          pb := ((((t.put .pb 0 x).put .pb a y).setPktLen n).emit e).pb
          chain := c, pktLen := BitVec.ofNat 16 n, obs := s.obs ++ [e], epoch := s.epoch + 1 } := by
    rintro _ _ _ _ _ _ _ _ rfl
    rfl
  exact finish _ _ _ _ _ _ _ _ (State.chainBlocks_eq s k (s.paddedLen / 16) 0)

/-- Assembly writes `PB[0..17+L)` and no other PB byte (42_encryption_wrapper.md R204). -/
theorem State.assemble_other (k : Scheme) (x : Nat) (h : 17 + s.paddedLen ≤ x) :
    (s.assemble k).byteAt .pb x = s.byteAt .pb x := by
  have hL := ceil16_eq s.plainLen
  have hb := State.chainBlocks_other s k (s.paddedLen / 16) 0 x (.inr (by unfold State.paddedLen at *; omega))
  have hr : (s.assemble k).resets = (s.chainBlocks k (s.paddedLen / 16) 0).resets := by
    rw [State.assemble_eq, State.chainBlocks_eq]
  rw [← hb]
  rw [State.byteAt_beside (s := (s.chainBlocks k (s.paddedLen / 16) 0).put .pb 0 [schemeId k]) (t := s.assemble k)
    (b := .pb) (a := 1 + s.paddedLen) (bs := (s.chainBlocks k (s.paddedLen / 16) 0).bytes .iv 0 16)
    (State.assemble_pb s k) (by rw [hr, State.put_resets]) (by rw [State.length_bytes]; omega)]
  rw [State.byteAt_put, if_neg (by simp; omega)]

/-- Every byte of the packet has been written. -/
theorem State.assemble_written (k : Scheme) (x : Nat) (h : x < 17 + s.paddedLen) :
    ((s.assemble k).pb.lookup x).isSome = true := by
  have hL := ceil16_eq s.plainLen
  rw [State.assemble_pb, Memory.isSome_storeAll, Memory.isSome_storeAll, State.chainBlocks_written,
    State.length_bytes, List.length_singleton]
  unfold State.paddedLen at *
  omega

/-- Assembly keeps PB's canonical form and its bound. -/
theorem State.assemble_form (k : Scheme) {b : Nat} (h : s.pb.wf = true) (hb : s.pb.within b = true)
    (hn : 17 + s.paddedLen ≤ b) :
    (s.assemble k).pb.wf = true ∧ (s.assemble k).pb.within b = true := by
  have hL := ceil16_eq s.plainLen
  obtain ⟨h1, h2⟩ := State.chainBlocks_form s k (s.paddedLen / 16) 0 b h hb (by unfold State.paddedLen at *; omega)
  rw [State.assemble_pb]
  exact ⟨Memory.wf_storeAll (Memory.wf_storeAll h1 _ _) _ _,
    Memory.within_storeAll (Memory.within_storeAll h2 _ _ (by rw [List.length_singleton]; omega)) _ _
      (by rw [State.length_bytes]; omega)⟩

/-- The state in which assembly starts: plaintext, IV and chaining value loaded, the entropy port read once
(42_encryption_wrapper.md R198, R200). -/
theorem State.ready_eq (iv : Block) : s.loadPlain.entropyRead.loadIv iv =
    { s with
      pt := s.loadPlain.pt, iv := s.iv.storeAll 0 iv.toList, chain := s.chain.storeAll 0 iv.toList
      ivHistory := if iv ∈ s.ivHistory then s.ivHistory else iv :: s.ivHistory
      entropyPort := s.entropyPort.tail, entropyReads := s.entropyReads + 1 } := by
  have h : ∀ (p : Memory) (l : List Byte), (((({ s with pt := p } : State).entropyRead.put .iv 0 l).recordIv iv).put
      .chain 0 l) =
    { s with
      pt := p, iv := s.iv.storeAll 0 l, chain := s.chain.storeAll 0 l
      ivHistory := if iv ∈ s.ivHistory then s.ivHistory else iv :: s.ivHistory
      entropyPort := s.entropyPort.tail, entropyReads := s.entropyReads + 1 } := fun _ _ => rfl
  exact h s.loadPlain.pt iv.toList

theorem State.ready_paddedLen (iv : Block) : (s.loadPlain.entropyRead.loadIv iv).paddedLen = s.paddedLen := by
  have h : (s.loadPlain.entropyRead.loadIv iv).frameLen = s.frameLen := by rw [State.ready_eq]
  unfold State.paddedLen State.plainLen
  rw [h]

/-- Where the packet's bytes stand: identifier, ciphertext, IV (42_encryption_wrapper.md R204). -/
theorem State.assemble_packet (k : Scheme) (iv : Block) :
    ((s.loadPlain.entropyRead.loadIv iv).assemble k).bytes .pb 0 (17 + s.paddedLen) =
      wirePacket s.cfg.cipher k (s.keyFor k) iv s.frame := by
  have hpt0 := State.loadPlain_pt s
  generalize hu : s.loadPlain.entropyRead.loadIv iv = u
  rw [State.ready_eq] at hu
  have hpt : u.bytes .pt 0 s.paddedLen = paddedPlain s.frame := by
    rw [← hpt0, ← hu]
    exact State.bytes_congr rfl rfl _ _
  have hL : u.paddedLen = s.paddedLen := by rw [← hu]; rfl
  have hcfg : u.cfg = s.cfg := by rw [← hu]
  have hkey : u.keyFor k = s.keyFor k := by rw [← hu]; exact State.bytes_congr rfl rfl _ _
  have stored : ∀ (t : State) (b : Buffer) (m : Memory) (l : List Byte), t.buffer b = m.storeAll 0 l →
      t.bytes b 0 l.length = l := by
    intro t b m l h
    exact State.bytes_eq fun i hi => (State.byteAt_stored h (Nat.zero_le _) (by omega)).trans (by simp)
  have hchain : u.bytes .chain 0 16 = iv.toList := by
    have := stored u .chain s.chain iv.toList (by rw [← hu]; rfl)
    rwa [Block.length_toList] at this
  have hiv : u.bytes .iv 0 16 = iv.toList := by
    have := stored u .iv s.iv iv.toList (by rw [← hu]; rfl)
    rwa [Block.length_toList] at this
  have hlen : s.paddedLen = 16 * (s.paddedLen / 16) := (ceil16_eq _).symm
  have hcbc := State.chainBlocks_cbc u k (s.paddedLen / 16) 0 iv hchain
  rw [Nat.mul_zero, Nat.add_zero, ← hlen, hpt, hcfg, hkey] at hcbc
  generalize ht : u.chainBlocks k (s.paddedLen / 16) 0 = t at hcbc
  have hiv' : t.bytes .iv 0 16 = iv.toList := by
    rw [← ht, State.chainBlocks_eq, ← hiv]
    exact State.bytes_congr rfl rfl _ _
  have ha : u.assemble k =
      (((t.put .pb 0 [schemeId k]).put .pb (1 + s.paddedLen) iv.toList).setPktLen
        (17 + s.paddedLen)).emit .encryptionApplied := by
    simp only [State.assemble, hL, ht, hiv']
  have hb : (u.assemble k).bytes .pb 0 (17 + s.paddedLen) =
      ((t.put .pb 0 [schemeId k]).put .pb (1 + s.paddedLen) iv.toList).bytes .pb 0 (17 + s.paddedLen) := by
    rw [ha]; exact State.bytes_congr rfl rfl _ _
  have happ := State.bytes_put_append (t.put .pb 0 [schemeId k]) .pb 0 (1 + s.paddedLen) (1 + s.paddedLen)
    iv.toList (by omega)
  rw [Block.length_toList, show 1 + s.paddedLen + 16 = 17 + s.paddedLen by omega] at happ
  rw [hb, happ, State.bytes_add]
  have hid : (t.put .pb 0 [schemeId k]).bytes .pb 0 1 = [schemeId k] :=
    State.bytes_put_same t .pb 0 [schemeId k]
  have hbody : (t.put .pb 0 [schemeId k]).bytes .pb (0 + 1) s.paddedLen = t.bytes .pb 1 s.paddedLen :=
    State.bytes_put_other _ _ _ _ _ _ _ (.inr (.inr (by simp)))
  rw [hid, hbody, hcbc]
  simp only [wirePacket, cipherBlocks, blockCount, State.length_frame, State.paddedLen, State.plainLen,
    List.cons_append, List.nil_append]

/-- Everything a successful encryption does, field by field (42_encryption_wrapper.md R190). -/
theorem State.sealFrame_eq (k : Scheme) (iv : Block) : s.sealFrame k iv =
    { s with
      pb := (s.sealFrame k iv).pb
      pktLen := BitVec.ofNat 16 (17 + s.paddedLen)
      pt := [], iv := [], chain := []
      obs := s.obs ++ [.encryptionApplied]
      ivHistory := if iv ∈ s.ivHistory then s.ivHistory else iv :: s.ivHistory
      entropyPort := s.entropyPort.tail, entropyReads := s.entropyReads + 1
      epoch := s.epoch + 1 } := by
  have finish : ∀ (u t : State) (p p' i c c' : Memory) (n : Nat),
      u = { s with
            pt := p', iv := i, chain := c'
            ivHistory := if iv ∈ s.ivHistory then s.ivHistory else iv :: s.ivHistory
            entropyPort := s.entropyPort.tail, entropyReads := s.entropyReads + 1 } →
      t = { u with
            pb := p, chain := c, pktLen := BitVec.ofNat 16 n, obs := u.obs ++ [.encryptionApplied]
            epoch := u.epoch + 1 } →
      t.forgetWork =
        { s with
          pb := t.forgetWork.pb, pktLen := BitVec.ofNat 16 n, pt := [], iv := [], chain := []
          obs := s.obs ++ [.encryptionApplied]
          ivHistory := if iv ∈ s.ivHistory then s.ivHistory else iv :: s.ivHistory
          entropyPort := s.entropyPort.tail, entropyReads := s.entropyReads + 1
          epoch := s.epoch + 1 } := by
    rintro _ _ _ _ _ _ _ _ rfl rfl
    rfl
  have ha := State.assemble_eq (s.loadPlain.entropyRead.loadIv iv) k
  rw [State.ready_paddedLen] at ha
  unfold State.sealFrame
  exact finish _ _ _ _ _ _ _ _ (State.ready_eq s iv) ha

theorem State.sealFrame_pb (k : Scheme) (iv : Block) :
    (s.sealFrame k iv).pb = ((s.loadPlain.entropyRead.loadIv iv).assemble k).pb := by
  unfold State.sealFrame
  rw [State.forgetWork_pb]

/-- A byte of PB after a successful encryption is the one assembly left. -/
theorem State.sealFrame_byteAt (k : Scheme) (iv : Block) (x : Nat) :
    (s.sealFrame k iv).byteAt .pb x = ((s.loadPlain.entropyRead.loadIv iv).assemble k).byteAt .pb x := by
  apply State.byteAt_congr
  · exact State.sealFrame_pb s k iv
  · unfold State.sealFrame
    rw [State.forgetWork_resets]

/-- The assembled packet (42_encryption_wrapper.md R204). -/
theorem State.sealFrame_packet (k : Scheme) (iv : Block) :
    (s.sealFrame k iv).bytes .pb 0 (17 + s.paddedLen) = wirePacket s.cfg.cipher k (s.keyFor k) iv s.frame := by
  rw [← State.assemble_packet]
  exact State.bytes_ext fun i _ => State.sealFrame_byteAt s k iv _

/-- PB beyond the packet stays (42_encryption_wrapper.md R209). -/
theorem State.sealFrame_other (k : Scheme) (iv : Block) (x : Nat) (h : 17 + s.paddedLen ≤ x) :
    (s.sealFrame k iv).byteAt .pb x = s.byteAt .pb x := by
  rw [State.sealFrame_byteAt, State.assemble_other _ _ _ (by rw [State.ready_paddedLen]; exact h), State.ready_eq]
  exact State.byteAt_congr rfl rfl x

/-- The packet of a frame that fits FB fits PB and a 16-bit length (00_scope.md R9, R13). -/
theorem State.packetLen_bound {s : State} (hc : s.cfg.wellFormed = true) (hf : s.frameLen.toNat ≤ fbCap s.cfg) :
    17 + s.paddedLen ≤ pbCap s.cfg ∧ (BitVec.ofNat 16 (17 + s.paddedLen)).toNat = 17 + s.paddedLen := by
  simp only [Params.wellFormed, decide_eq_true_eq] at hc
  simp only [BitVec.toNat_ofNat, State.paddedLen, State.plainLen, ceil16, pbCap, fbCap, headerLength, blockLen] at *
  omega

/-- The same after the command's first act. -/
theorem State.sealed_eq (k : Scheme) (iv : Block) : s.beginCommand.sealFrame k iv =
    { s with
      status := 0
      pb := (s.beginCommand.sealFrame k iv).pb
      pktLen := BitVec.ofNat 16 (17 + s.paddedLen)
      pt := [], iv := [], chain := []
      obs := s.obs ++ [.encryptionApplied]
      ivHistory := if iv ∈ s.ivHistory then s.ivHistory else iv :: s.ivHistory
      entropyPort := s.entropyPort.tail, entropyReads := s.entropyReads + 1
      epoch := s.epoch + 1 } := by
  have h := State.sealFrame_eq s.beginCommand k iv
  have e : s.beginCommand.paddedLen = s.paddedLen := rfl
  rw [e] at h
  exact h

/-! ### Each field after a successful encryption (R190) -/

@[simp] theorem State.sealed_cfg (k : Scheme) (iv : Block) :
    (s.beginCommand.sealFrame k iv).cfg = s.cfg := by
  rw [State.sealed_eq]
@[simp] theorem State.sealed_status (k : Scheme) (iv : Block) :
    (s.beginCommand.sealFrame k iv).status = 0 := by
  rw [State.sealed_eq]
@[simp] theorem State.sealed_evKind (k : Scheme) (iv : Block) :
    (s.beginCommand.sealFrame k iv).evKind = s.evKind := by
  rw [State.sealed_eq]
@[simp] theorem State.sealed_encKind (k : Scheme) (iv : Block) :
    (s.beginCommand.sealFrame k iv).encKind = s.encKind := by
  rw [State.sealed_eq]
@[simp] theorem State.sealed_keyLen (k : Scheme) (iv : Block) :
    (s.beginCommand.sealFrame k iv).keyLen = s.keyLen := by
  rw [State.sealed_eq]
@[simp] theorem State.sealed_crcDin (k : Scheme) (iv : Block) :
    (s.beginCommand.sealFrame k iv).crcDin = s.crcDin := by
  rw [State.sealed_eq]
@[simp] theorem State.sealed_crc (k : Scheme) (iv : Block) :
    (s.beginCommand.sealFrame k iv).crc = s.crc := by
  rw [State.sealed_eq]
@[simp] theorem State.sealed_crcStart (k : Scheme) (iv : Block) :
    (s.beginCommand.sealFrame k iv).crcStart = s.crcStart := by
  rw [State.sealed_eq]
@[simp] theorem State.sealed_crcEnd (k : Scheme) (iv : Block) :
    (s.beginCommand.sealFrame k iv).crcEnd = s.crcEnd := by
  rw [State.sealed_eq]
@[simp] theorem State.sealed_frameLen (k : Scheme) (iv : Block) :
    (s.beginCommand.sealFrame k iv).frameLen = s.frameLen := by
  rw [State.sealed_eq]
@[simp] theorem State.sealed_pktLen (k : Scheme) (iv : Block) :
    (s.beginCommand.sealFrame k iv).pktLen = BitVec.ofNat 16 (17 + s.paddedLen) := by
  rw [State.sealed_eq]
@[simp] theorem State.sealed_key (k : Scheme) (iv : Block) :
    (s.beginCommand.sealFrame k iv).key = s.key := by
  rw [State.sealed_eq]
@[simp] theorem State.sealed_ev (k : Scheme) (iv : Block) :
    (s.beginCommand.sealFrame k iv).ev = s.ev := by
  rw [State.sealed_eq]
@[simp] theorem State.sealed_fb (k : Scheme) (iv : Block) :
    (s.beginCommand.sealFrame k iv).fb = s.fb := by
  rw [State.sealed_eq]
@[simp] theorem State.sealed_pt (k : Scheme) (iv : Block) :
    (s.beginCommand.sealFrame k iv).pt = [] := by
  rw [State.sealed_eq]
@[simp] theorem State.sealed_iv (k : Scheme) (iv : Block) :
    (s.beginCommand.sealFrame k iv).iv = [] := by
  rw [State.sealed_eq]
@[simp] theorem State.sealed_chain (k : Scheme) (iv : Block) :
    (s.beginCommand.sealFrame k iv).chain = [] := by
  rw [State.sealed_eq]
@[simp] theorem State.sealed_obs (k : Scheme) (iv : Block) :
    (s.beginCommand.sealFrame k iv).obs = s.obs ++ [.encryptionApplied] := by
  rw [State.sealed_eq]
@[simp] theorem State.sealed_ivHistory (k : Scheme) (iv : Block) :
    (s.beginCommand.sealFrame k iv).ivHistory = if iv ∈ s.ivHistory then s.ivHistory else iv :: s.ivHistory := by
  rw [State.sealed_eq]
@[simp] theorem State.sealed_clockPort (k : Scheme) (iv : Block) :
    (s.beginCommand.sealFrame k iv).clockPort = s.clockPort := by
  rw [State.sealed_eq]
@[simp] theorem State.sealed_clockReads (k : Scheme) (iv : Block) :
    (s.beginCommand.sealFrame k iv).clockReads = s.clockReads := by
  rw [State.sealed_eq]
@[simp] theorem State.sealed_entropyPort (k : Scheme) (iv : Block) :
    (s.beginCommand.sealFrame k iv).entropyPort = s.entropyPort.tail := by
  rw [State.sealed_eq]
@[simp] theorem State.sealed_entropyReads (k : Scheme) (iv : Block) :
    (s.beginCommand.sealFrame k iv).entropyReads = s.entropyReads + 1 := by
  rw [State.sealed_eq]
@[simp] theorem State.sealed_inputs (k : Scheme) (iv : Block) :
    (s.beginCommand.sealFrame k iv).inputs = s.inputs := by
  rw [State.sealed_eq]
@[simp] theorem State.sealed_answers (k : Scheme) (iv : Block) :
    (s.beginCommand.sealFrame k iv).answers = s.answers := by
  rw [State.sealed_eq]
@[simp] theorem State.sealed_epoch (k : Scheme) (iv : Block) :
    (s.beginCommand.sealFrame k iv).epoch = s.epoch + 1 := by
  rw [State.sealed_eq]
@[simp] theorem State.sealed_resets (k : Scheme) (iv : Block) :
    (s.beginCommand.sealFrame k iv).resets = s.resets := by
  rw [State.sealed_eq]

/-- The packet a successful encryption leaves (42_encryption_wrapper.md R204). -/
theorem State.sealed_packet {s : State} (hc : s.cfg.wellFormed = true) (hf : s.frameLen.toNat ≤ fbCap s.cfg)
    (k : Scheme) (iv : Block) :
    (s.beginCommand.sealFrame k iv).packet = wirePacket s.cfg.cipher k (s.keyFor k) iv s.frame := by
  have e : (s.beginCommand.sealFrame k iv).pktLen.toNat = 17 + s.paddedLen := by
    rw [State.sealed_eq]
    exact (State.packetLen_bound hc hf).2
  unfold State.packet
  rw [e]
  exact State.sealFrame_packet s.beginCommand k iv

/-- A scheme other than None is named by 1, 2 or 3 (30_encoding.md R111). -/
theorem schemeOfKind_bound {kind : Byte} {k : Scheme} (h : schemeOfKind kind = some k) :
    kind ≠ 0 ∧ kind.toNat ≤ 3 := by
  revert kind; cases k <;> decide

/-- ENCRYPT on a frame, with a scheme and a key of its length and an answer of the entropy source. -/
theorem State.performEncrypt_some {s : State} {k : Scheme} {iv : Block} (h0 : s.frameLen ≠ 0) (hk : s.keyedFor k)
    (hd : s.entropyDraw = some iv) : s.performEncrypt = s.beginCommand.sealFrame k iv := by
  obtain ⟨hk, hl⟩ := hk
  have hb := schemeOfKind_bound hk
  rcases s.performEncrypt_cases with ⟨h, _⟩ | ⟨_, h, _⟩ | ⟨_, h, _⟩ | ⟨k', _, h, hl', _⟩ | ⟨_, _, _, _, h, _⟩ |
    ⟨k', iv', _, h, _, hd', e⟩
  · exact absurd h h0
  · omega
  · exact absurd h hb.1
  · rw [hk] at h; injection h with h; subst h; exact absurd hl hl'
  · rw [hd] at h; cases h
  · rw [hk] at h; injection h with h; subst h
    rw [hd] at hd'; injection hd' with hd'; subst hd'
    exact e

end Sys2Proof.Machine
end

