-- ==== Sys2Proof/Laws/FrameBuilder.lean ====
section
/-! SUPPORT. What BUILD's shared operations do, said once: the clock, the fields, the CRC, and which of BUILD's three
endings is taken. -/

namespace Sys2Proof.Machine

variable (s : State)

@[simp] theorem length_timeBytes (t : ClockReading) : (timeBytes t).length = 7 := rfl
@[simp] theorem State.length_guid : s.guid.length = 16 := by simp [State.guid]
@[simp] theorem State.length_payload : s.payload.length = s.size.toNat := by simp [State.payload]

/-- The Frame up to its CRC is `36 + SIZE` bytes long (30_encoding.md R101). -/
@[simp] theorem State.length_frameImage : s.frameImage.length = 36 + s.size.toNat := by
  simp only [State.frameImage, List.length_append, List.length_cons, List.length_nil, length_be16, length_be32,
    length_timeBytes, State.length_guid, State.length_payload]

/-- Reading the clock touches the clock port alone, and only under the sentinel. -/
theorem State.readEventClock_eq : s.readEventClock =
    { s with
      clockPort := if s.sentinel then s.clockPort.tail else s.clockPort
      clockReads := if s.sentinel then s.clockReads + 1 else s.clockReads } := by
  unfold State.readEventClock
  split <;> rfl

/-- Steps 2 to 9 of BUILD change FB and the clock port, nothing else. -/
theorem State.writeFields_eq : s.writeFields =
    { s with
      fb := s.writeFields.fb
      clockPort := if s.sentinel then s.clockPort.tail else s.clockPort
      clockReads := if s.sentinel then s.clockReads + 1 else s.clockReads } := by
  have put_fb : ∀ (t : State) (a : Nat) (bs : List Byte), t.put .fb a bs = { t with fb := t.fb.storeAll a bs } :=
    fun _ _ _ => rfl
  unfold State.writeFields
  simp only [put_fb, State.readEventClock_eq]

/-- Steps 2 to 9 of BUILD put the fields in a row, each at its offset of the wire layout (30_encoding.md R100). -/
theorem State.writeFields_image : s.writeFields.bytes .fb 0 (36 + s.size.toNat) = s.frameImage := by
  have start : ∀ (t : State) (bs : List Byte), (t.put .fb 0 bs).bytes .fb 0 bs.length = bs :=
    fun t bs => State.bytes_put_same t .fb 0 bs
  have next : ∀ (t : State) (n : Nat) (bs : List Byte) (l : List Byte), t.bytes .fb 0 n = l →
      (t.put .fb n bs).bytes .fb 0 (n + bs.length) = l ++ bs := by
    intro t n bs l h
    rw [State.bytes_put_append t .fb 0 n n bs (Nat.zero_add n), h]
  unfold State.writeFields State.frameImage
  have h0 := start s.readEventClock [s.pktType]
  have h1 := next _ 1 (be16 s.head) _ h0
  have h2 := next _ 3 (be32 s.timestamp) _ h1
  have h3 := next _ 7 (timeBytes s.eventTime) _ h2
  have h4 := next _ 14 (be16 s.vscpClass) _ h3
  have h5 := next _ 16 (be16 s.vscpType) _ h4
  have h6 := next _ 18 s.guid _ h5
  simp only [State.length_guid] at h6
  have h7 := next _ 34 (be16 s.size) _ h6
  have h8 := next _ 36 s.payload _ h7
  simp only [State.length_payload] at h8
  exact h8

/-- Steps 2 to 9 of BUILD leave FB from offset `36 + SIZE` on as it was. -/
theorem State.writeFields_beyond (x : Nat) (h : 36 + s.size.toNat ≤ x) :
    s.writeFields.byteAt .fb x = s.byteAt .fb x := by
  unfold State.writeFields
  simp only [State.byteAt_put, List.length_singleton, length_be16, length_be32, length_timeBytes, State.length_guid,
    State.length_payload, true_and]
  iterate 9 rw [if_neg (by omega)]
  exact State.byteAt_congr (by rw [State.readEventClock_eq]; rfl) (by rw [State.readEventClock_eq]) x

/-- Which FB bytes have been written after steps 2 to 9 of BUILD. -/
theorem State.writeFields_written (x : Nat) (h : x < 36 + s.size.toNat) :
    (s.writeFields.fb.lookup x).isSome = true := by
  unfold State.writeFields
  simp only [State.put_fb_fb, Memory.isSome_storeAll, List.length_singleton, length_be16, length_be32,
    length_timeBytes, State.length_guid, State.length_payload]
  omega

/-- Steps 2 to 9 of BUILD keep FB's canonical form and its bound. -/
theorem State.writeFields_form {n : Nat} (h : s.fb.wf = true) (hn : s.fb.within n = true)
    (hs : 36 + s.size.toNat ≤ n) :
    s.writeFields.fb.wf = true ∧ s.writeFields.fb.within n = true := by
  have hr : s.readEventClock.fb = s.fb := by rw [State.readEventClock_eq]
  unfold State.writeFields
  simp only [State.put_fb_fb, hr]
  constructor
  · iterate 9 apply Memory.wf_storeAll
    exact h
  · iterate 9 refine Memory.within_storeAll ?_ _ _ (by simp; try omega)
    exact hn

/-- The CRC step that BUILD and CRC_APPEND share changes CRC, two bytes of FB and OBS. -/
theorem State.appendCrc_eq (a e : Nat) : s.appendCrc a e =
    { s with
      crc := crc16 (s.bytes .fb a (e - a))
      fb := s.fb.storeAll e (be16 (crc16 (s.bytes .fb a (e - a))))
      obs := s.obs ++ [.checksumComputed] } := rfl

/-- BUILD ends in one of three ways, tested in this order (60_exceptions.md R264). -/
theorem State.performBuild_cases :
    (s.evKind ≠ 1 ∧ s.performBuild = s.beginCommand.raise .build .typeMismatch) ∨
    (s.evKind = 1 ∧ s.cfg.maxData < s.size.toNat ∧ s.performBuild = s.beginCommand.raise .build .dataTooLarge) ∨
    (s.evKind = 1 ∧ s.size.toNat ≤ s.cfg.maxData ∧ s.performBuild = s.beginCommand.buildFrame) := by
  by_cases h1 : s.evKind = 1
  · by_cases h2 : s.size.toNat ≤ s.cfg.maxData
    · exact .inr (.inr ⟨h1, h2, (if_pos h1).trans (if_pos h2)⟩)
    · exact .inr (.inl ⟨h1, by omega, (if_pos h1).trans (if_neg h2)⟩)
  · exact .inl ⟨h1, if_neg h1⟩

/-- Everything a BUILD that passes its tests does, field by field (40_frame_builder.md R130). -/
theorem State.buildFrame_eq : s.buildFrame =
    { s with
      crc := crc16 (s.writeFields.bytes .fb 1 (35 + s.size.toNat))
      fb := s.writeFields.fb.storeAll (36 + s.size.toNat)
              (be16 (crc16 (s.writeFields.bytes .fb 1 (35 + s.size.toNat))))
      frameLen := BitVec.ofNat 16 (38 + s.size.toNat)
      obs := s.obs ++ [.checksumComputed] ++ [.frameBuilt]
      clockPort := if s.sentinel then s.clockPort.tail else s.clockPort
      clockReads := if s.sentinel then s.clockReads + 1 else s.clockReads
      epoch := s.epoch + 1 } := by
  have e : 36 + s.size.toNat - 1 = 35 + s.size.toNat := by omega
  unfold State.buildFrame
  rw [State.appendCrc_eq, e]
  rw [State.writeFields_eq]
  rfl

/-- The CRC that BUILD computes is that of the frame image after its first byte (R140). -/
theorem State.buildFrame_crc :
    crc16 (s.writeFields.bytes .fb 1 (35 + s.size.toNat)) = s.frameCrc := by
  have h := State.writeFields_image s
  rw [show 36 + s.size.toNat = 1 + (35 + s.size.toNat) by omega, State.bytes_add] at h
  unfold State.frameCrc
  rw [← h]
  simp

/-- BUILD of an extended event that fits (R131, R132). -/
theorem State.performBuild_of_buildable {s : State} (h : s.buildable) :
    s.performBuild = s.beginCommand.buildFrame := by
  rcases s.performBuild_cases with ⟨h', _⟩ | ⟨_, h', _⟩ | ⟨_, _, e⟩
  · exact absurd h.1 h'
  · have := h.2; omega
  · exact e

/-- Everything a successful BUILD does, field by field, with the CRC of the wire frame (R130, R140). -/
theorem State.built_eq : s.beginCommand.buildFrame =
    { s with
      status := 0
      crc := s.frameCrc
      fb := s.beginCommand.writeFields.fb.storeAll (36 + s.size.toNat) (be16 s.frameCrc)
      frameLen := BitVec.ofNat 16 (38 + s.size.toNat)
      obs := s.obs ++ [.checksumComputed] ++ [.frameBuilt]
      clockPort := if s.sentinel then s.clockPort.tail else s.clockPort
      clockReads := if s.sentinel then s.clockReads + 1 else s.clockReads
      epoch := s.epoch + 1 } := by
  rw [State.buildFrame_eq, State.buildFrame_crc]
  rfl

/-! ### Each field after a successful BUILD (R130) -/

@[simp] theorem State.built_cfg : s.beginCommand.buildFrame.cfg = s.cfg := by rw [State.built_eq]
@[simp] theorem State.built_status : s.beginCommand.buildFrame.status = 0 := by rw [State.built_eq]
@[simp] theorem State.built_evKind : s.beginCommand.buildFrame.evKind = s.evKind := by rw [State.built_eq]
@[simp] theorem State.built_encKind : s.beginCommand.buildFrame.encKind = s.encKind := by rw [State.built_eq]
@[simp] theorem State.built_keyLen : s.beginCommand.buildFrame.keyLen = s.keyLen := by rw [State.built_eq]
@[simp] theorem State.built_crcDin : s.beginCommand.buildFrame.crcDin = s.crcDin := by rw [State.built_eq]
@[simp] theorem State.built_crc : s.beginCommand.buildFrame.crc = s.frameCrc := by rw [State.built_eq]
@[simp] theorem State.built_crcStart : s.beginCommand.buildFrame.crcStart = s.crcStart := by rw [State.built_eq]
@[simp] theorem State.built_crcEnd : s.beginCommand.buildFrame.crcEnd = s.crcEnd := by rw [State.built_eq]
@[simp] theorem State.built_frameLen : s.beginCommand.buildFrame.frameLen =
    BitVec.ofNat 16 (38 + s.size.toNat) := by rw [State.built_eq]
@[simp] theorem State.built_pktLen : s.beginCommand.buildFrame.pktLen = s.pktLen := by rw [State.built_eq]
@[simp] theorem State.built_key : s.beginCommand.buildFrame.key = s.key := by rw [State.built_eq]
@[simp] theorem State.built_ev : s.beginCommand.buildFrame.ev = s.ev := by rw [State.built_eq]
@[simp] theorem State.built_pb : s.beginCommand.buildFrame.pb = s.pb := by rw [State.built_eq]
@[simp] theorem State.built_pt : s.beginCommand.buildFrame.pt = s.pt := by rw [State.built_eq]
@[simp] theorem State.built_iv : s.beginCommand.buildFrame.iv = s.iv := by rw [State.built_eq]
@[simp] theorem State.built_chain : s.beginCommand.buildFrame.chain = s.chain := by rw [State.built_eq]
@[simp] theorem State.built_obs : s.beginCommand.buildFrame.obs =
    s.obs ++ [.checksumComputed] ++ [.frameBuilt] := by rw [State.built_eq]
@[simp] theorem State.built_ivHistory : s.beginCommand.buildFrame.ivHistory = s.ivHistory := by rw [State.built_eq]
@[simp] theorem State.built_clockPort : s.beginCommand.buildFrame.clockPort =
    if s.sentinel then s.clockPort.tail else s.clockPort := by rw [State.built_eq]
@[simp] theorem State.built_clockReads : s.beginCommand.buildFrame.clockReads =
    if s.sentinel then s.clockReads + 1 else s.clockReads := by rw [State.built_eq]
@[simp] theorem State.built_entropyPort : s.beginCommand.buildFrame.entropyPort =
    s.entropyPort := by rw [State.built_eq]
@[simp] theorem State.built_entropyReads : s.beginCommand.buildFrame.entropyReads =
    s.entropyReads := by rw [State.built_eq]
@[simp] theorem State.built_inputs : s.beginCommand.buildFrame.inputs = s.inputs := by rw [State.built_eq]
@[simp] theorem State.built_answers : s.beginCommand.buildFrame.answers = s.answers := by rw [State.built_eq]
@[simp] theorem State.built_epoch : s.beginCommand.buildFrame.epoch = s.epoch + 1 := by rw [State.built_eq]
@[simp] theorem State.built_resets : s.beginCommand.buildFrame.resets = s.resets := by rw [State.built_eq]

/-- The frame's length fits 16 bits (00_scope.md R9). -/
theorem State.frameLen_bound {s : State} (hc : s.cfg.wellFormed = true) (hb : s.buildable) :
    38 + s.size.toNat ≤ fbCap s.cfg ∧ (BitVec.ofNat 16 (38 + s.size.toNat)).toNat = 38 + s.size.toNat := by
  have := hb.2
  simp only [Params.wellFormed, decide_eq_true_eq] at hc
  simp only [BitVec.toNat_ofNat, fbCap, headerLength]
  omega

/-- A byte of FB from `36 + SIZE` on, the CRC apart, after a successful BUILD. -/
theorem State.built_beside (x : Nat) (hx : ¬ (36 + s.size.toNat ≤ x ∧ x < 38 + s.size.toNat)) :
    s.beginCommand.buildFrame.byteAt .fb x = s.beginCommand.writeFields.byteAt .fb x := by
  rw [State.built_eq]
  exact State.byteAt_beside (s := s.beginCommand.writeFields) (b := .fb) (a := 36 + s.size.toNat)
    (bs := be16 s.frameCrc) rfl (by rw [State.writeFields_eq]; rfl) (by rw [length_be16]; omega)

/-- FB after a successful BUILD, up to the CRC. -/
theorem State.built_image : s.beginCommand.buildFrame.bytes .fb 0 (36 + s.size.toNat) = s.frameImage := by
  rw [← show s.beginCommand.frameImage = s.frameImage from rfl, ← State.writeFields_image]
  exact State.bytes_ext fun i (hi : i < 36 + s.size.toNat) => State.built_beside s _ (by omega)

/-- FB after a successful BUILD, the CRC with it (R134 to R140). -/
theorem State.built_bytes : s.beginCommand.buildFrame.bytes .fb 0 (38 + s.size.toNat) = s.wireFrame := by
  rw [show 38 + s.size.toNat = (36 + s.size.toNat) + 2 by omega, State.bytes_add, State.built_image]
  unfold State.wireFrame
  congr 1
  rw [Nat.zero_add]
  apply State.bytes_eq (l := be16 s.frameCrc)
  intro i hi
  rw [State.built_eq, State.byteAt_stored (a := 36 + s.size.toNat) (bs := be16 s.frameCrc) rfl (by omega)
    (by rw [length_be16] at *; omega)]
  congr 1; omega

/-- The Frame a successful BUILD leaves (R141). -/
theorem State.built_frame {s : State} (hc : s.cfg.wellFormed = true) (hb : s.buildable) :
    s.beginCommand.buildFrame.frame = s.wireFrame := by
  unfold State.frame
  rw [show s.beginCommand.buildFrame.frameLen.toNat = 38 + s.size.toNat by
    rw [State.built_eq]; exact (State.frameLen_bound hc hb).2, State.built_bytes]

/-- FB beyond the frame stays (R130). -/
theorem State.built_beyond (x : Nat) (hx : 38 + s.size.toNat ≤ x) :
    s.beginCommand.buildFrame.byteAt .fb x = s.byteAt .fb x := by
  rw [State.built_beside s x (by omega)]
  rw [State.writeFields_beyond _ _ (by show 36 + s.size.toNat ≤ x; omega)]
  exact State.byteAt_congr rfl rfl x

/-- The date/time sentinel, byte by byte (R136). -/
theorem State.sentinel_iff : s.sentinel = true ↔ ∀ x, 7 ≤ x → x < 14 → s.byteAt .ev x = 0 := by
  have h0 : ∀ a b : Byte, u16 a b = 0 ↔ a = 0 ∧ b = 0 := by
    intro a b
    constructor
    · intro h
      have h1 := hi8_u16 a b
      have h2 := lo8_u16 a b
      rw [h] at h1 h2
      exact ⟨h1.symm.trans (by decide), h2.symm.trans (by decide)⟩
    · rintro ⟨rfl, rfl⟩
      decide
  unfold State.sentinel State.suppliedTime
  rw [decide_eq_true_eq, ClockReading.mk.injEq, h0]
  constructor
  · rintro ⟨⟨a, b⟩, c, d, e, f, g⟩ x h1 h2
    obtain rfl | rfl | rfl | rfl | rfl | rfl | rfl :
      x = 7 ∨ x = 8 ∨ x = 9 ∨ x = 10 ∨ x = 11 ∨ x = 12 ∨ x = 13 := by omega
    all_goals assumption
  · intro h
    exact ⟨⟨h 7 (by omega) (by omega), h 8 (by omega) (by omega)⟩, h 9 (by omega) (by omega),
      h 10 (by omega) (by omega), h 11 (by omega) (by omega), h 12 (by omega) (by omega), h 13 (by omega) (by omega)⟩

end Sys2Proof.Machine
end

