-- ==== Sys2Proof/Laws/HostAccess.lean ====
section
/-! SUPPORT. What a step can do, by the host's next action, and the offsets of KEY. -/

namespace Sys2Proof.Machine

/-- `KEY[0..31]` stands at CSR offsets 0x10 to 0x2F (20_memory.md R61). -/
theorem isKeyOffset_iff (off : Nat) : isKeyOffset off = true ↔ 0x10 ≤ off ∧ off ≤ 0x2F := by
  unfold isKeyOffset
  rw [Bool.and_eq_true, decide_eq_true_eq, decide_eq_true_eq]
  simp only [keyOffset, keySize]
  omega

/-- The host's next action, taken off the list. -/
theorem State.nextAction_cons {s : State} {a : HostAction} {rest : List HostAction} (h : s.inputs = a :: rest) :
    s.nextAction = some (a, { s with inputs := rest }) := by
  simp [State.nextAction, h]

/-- A step performs the host's next action. -/
theorem step_cons {s : State} {a : HostAction} {rest : List HostAction} (h : s.inputs = a :: rest) :
    step s = perform a { s with inputs := rest } := by
  simp [step, State.nextAction_cons h]

/-- A step without a host action changes nothing. -/
theorem step_nil {s : State} (h : s.inputs = []) : step s = .next s := by
  simp [step, State.nextAction, h]

/-- A run goes on from the state its first step answers. -/
theorem run_next {s t : State} (h : step s = .next t) (n : Nat) :
    Sys2Proof.core.run (n + 1) s = Sys2Proof.core.run n t := by
  have run_any : ∀ (M : Host.Core) (n : Nat) (s t : M.State), M.step s = .next t → M.run (n + 1) s = M.run n t := by
    intro M n s t h
    simp only [Host.Core.run, h]
  exact run_any Sys2Proof.core n s t h

/-- A write to `CMD` runs a command. -/
theorem perform_cmd (c : Byte) (s : State) : perform (.write .csr 0x00 c) s = runCommand c s := rfl

/-- Any other write is a host write. -/
theorem perform_write {sp : Space} {off : Nat} (h : ¬ (sp = .csr ∧ off = 0x00)) (v : Byte) (s : State) :
    perform (.write sp off v) s = .next (s.hostWrite sp off v) := if_neg h

/-- The effect of a code that decodes. -/
theorem runCommand_ok {c : Byte} {i : Instr} (h : decode c = .ok i) (s : State) : runCommand c s = exec i s := by
  simp [runCommand, h]

/-- The effect of a code that names no command (43_pipeline.md R225). -/
theorem runCommand_illegal {c : Byte} {r : DecodeReject} (h : decode c = .error r) (s : State) :
    runCommand c s = .next { s with status := 0x07 } := by
  simp only [runCommand, h, State.illegalCommand, State.fail_eq]
  rfl

/-- Everything a host write other than to `CMD` can do: one register, one key or event byte, or nothing. -/
theorem State.hostWrite_cases (s : State) (sp : Space) (off : Nat) (v : Byte) :
    (sp = .csr ∧ off = 0x02 ∧ s.hostWrite sp off v = { s with evKind := v }) ∨
    (sp = .csr ∧ off = 0x03 ∧ s.hostWrite sp off v = { s with encKind := v }) ∨
    (sp = .csr ∧ off = 0x04 ∧ s.hostWrite sp off v = { s with keyLen := v }) ∨
    (sp = .csr ∧ off = 0x05 ∧ s.hostWrite sp off v = { s with crcDin := v }) ∨
    (sp = .csr ∧ off = 0x08 ∧ s.hostWrite sp off v = { s with crcStart := u16 v (lo8 s.crcStart) }) ∨
    (sp = .csr ∧ off = 0x09 ∧ s.hostWrite sp off v = { s with crcStart := u16 (hi8 s.crcStart) v }) ∨
    (sp = .csr ∧ off = 0x0A ∧ s.hostWrite sp off v = { s with crcEnd := u16 v (lo8 s.crcEnd) }) ∨
    (sp = .csr ∧ off = 0x0B ∧ s.hostWrite sp off v = { s with crcEnd := u16 (hi8 s.crcEnd) v }) ∨
    (∃ i, sp = .csr ∧ i < 32 ∧ off = 0x10 + i ∧ s.hostWrite sp off v = s.put .key i [v]) ∨
    (sp = .ev ∧ off < evSize s.cfg ∧ s.hostWrite sp off v = s.put .ev off [v]) ∨
    (hostWritable s.cfg sp off = false ∧ s.hostWrite sp off v = s) := by
  cases sp with
  | csr =>
    by_cases hk : 0x10 ≤ off ∧ off ≤ 0x2F
    · have e : s.hostWrite .csr off v = s.put .key (off - 0x10) [v] := by
        show s.writeCsr off v = _
        unfold State.writeCsr
        split <;> try omega
        exact if_pos ((isKeyOffset_iff off).2 hk)
      iterate 8 right
      exact .inl ⟨off - 0x10, rfl, by omega, by omega, e⟩
    · by_cases h2 : off = 0x02
      · subst h2
        exact .inl ⟨rfl, rfl, rfl⟩
      by_cases h3 : off = 0x03
      · subst h3
        iterate 1 right
        exact .inl ⟨rfl, rfl, rfl⟩
      by_cases h4 : off = 0x04
      · subst h4
        iterate 2 right
        exact .inl ⟨rfl, rfl, rfl⟩
      by_cases h5 : off = 0x05
      · subst h5
        iterate 3 right
        exact .inl ⟨rfl, rfl, rfl⟩
      by_cases h8 : off = 0x08
      · subst h8
        iterate 4 right
        exact .inl ⟨rfl, rfl, rfl⟩
      by_cases h9 : off = 0x09
      · subst h9
        iterate 5 right
        exact .inl ⟨rfl, rfl, rfl⟩
      by_cases hA : off = 0x0A
      · subst hA
        iterate 6 right
        exact .inl ⟨rfl, rfl, rfl⟩
      by_cases hB : off = 0x0B
      · subst hB
        iterate 7 right
        exact .inl ⟨rfl, rfl, rfl⟩
      have e : s.hostWrite .csr off v = s := by
        show s.writeCsr off v = _
        unfold State.writeCsr
        split <;> try omega
        exact if_neg (fun h => hk ((isKeyOffset_iff off).1 h))
      have w : hostWritable s.cfg .csr off = false := by
        simp [hostWritable, h2, h3, h4, h5, h8, h9, hA, hB]
        omega
      iterate 10 right
      exact ⟨w, e⟩
  | ev =>
    by_cases h : off < evSize s.cfg
    · iterate 9 right
      exact .inl ⟨rfl, h, if_pos h⟩
    · iterate 10 right
      exact ⟨by simpa [hostWritable] using h, if_neg h⟩
  | fb =>
    iterate 10 right
    exact ⟨rfl, rfl⟩
  | pb =>
    iterate 10 right
    exact ⟨rfl, rfl⟩

end Sys2Proof.Machine
end

