-- ==== Sys2Proof/Laws/PerInstr.lean ====
section
/-! SUPPORT. What holds of each command as syntax: it is well formed, and its code is that of exactly one row of the
opcode table (30_encoding.md R90, R92). -/

namespace Sys2Proof.Laws

/-- The command is well formed and the rows of the opcode table that its code hits are one row: its own. -/
def LegalCode.Statement (i : Instr) : Prop :=
  i.wellFormed = true ∧ opcodeTable.filter (fun r => r.hits (encode i)) = [⟨0xFF, encode i, i⟩]

theorem LegalCode.build : LegalCode.Statement .build := by unfold LegalCode.Statement; decide
theorem LegalCode.crcAppend : LegalCode.Statement .crcAppend := by unfold LegalCode.Statement; decide
theorem LegalCode.encrypt : LegalCode.Statement .encrypt := by unfold LegalCode.Statement; decide
theorem LegalCode.send : LegalCode.Statement .send := by unfold LegalCode.Statement; decide
theorem LegalCode.crcInit : LegalCode.Statement .crcInit := by unfold LegalCode.Statement; decide
theorem LegalCode.crcUpdate : LegalCode.Statement .crcUpdate := by unfold LegalCode.Statement; decide

end Sys2Proof.Laws
end

