-- ==== Sys2Proof/Tests/Slice0.lean ====
section
/-! SUPPORT. The model's own tests. Expected values are those of 95_test_vectors.md (T and V numbers) and
44_block_cipher.md R247, none of them this model's own answer. After them, one witness for each statement that has
hypotheses: a state and operands that meet all of them together, clause by clause at the edges of its range. -/

namespace Sys2Proof.Tests

open Sys2Proof.Machine

/-! ### Well-formedness: an ill-formed term for each check; a command has no field that could be ill-formed -/

theorem test_params_bound : Params.wellFormed ⟨65467, .aes⟩ = true := by decide
theorem test_params_beyond_bound : Params.wellFormed ⟨65468, .aes⟩ = false := by decide
theorem test_clock_three_digit_year : ClockReading.fourDigitYear ⟨999, 12, 31, 23, 59, 59⟩ = false := by decide
theorem test_clock_five_digit_year : ClockReading.fourDigitYear ⟨10000, 1, 1, 0, 0, 0⟩ = false := by decide
theorem test_clock_four_digit_year : ClockReading.fourDigitYear ⟨9999, 1, 1, 0, 0, 0⟩ = true := by decide

/-! ### Decoding: words written out from 30_encoding.md R92, and codes of R93 -/

theorem test_decode_build : decodeTableWord 8 0b00000001 = some .build := by decide
theorem test_decode_crc_append : decodeTableWord 8 0b00000010 = some .crcAppend := by decide
theorem test_decode_encrypt : decodeTableWord 8 0b00000011 = some .encrypt := by decide
theorem test_decode_send : decodeTableWord 8 0b00000100 = some .send := by decide
theorem test_decode_crc_init : decodeTableWord 8 0b00010000 = some .crcInit := by decide
theorem test_decode_crc_update : decodeTableWord 8 0b00010001 = some .crcUpdate := by decide

/-- T24's codes: each is rejected by name. -/
theorem test_decode_illegal_codes :
    ∀ c ∈ [0x00#8, 0x05#8, 0x0F#8, 0x12#8, 0x20#8, 0x80#8, 0xFF#8], decode c = .error (.illegalCode c) := by
  intro c hc
  simp only [List.mem_cons, List.not_mem_nil, or_false] at hc
  rcases hc with rfl | rfl | rfl | rfl | rfl | rfl | rfl <;> rfl

/-- The opcode table of R92 is without overlap, and 250 codes are illegal (R93). -/
theorem test_decode_six_codes :
    ((List.range 256).filter (fun c => (decodeTableWord 8 c).isSome)).length = 6 := by decide +kernel

/-! ### States the tests start from -/

/-- `n` bytes counting up from `a`. -/
def countUp (a n : Nat) : List Byte := (List.range n).map (fun i => BitVec.ofNat 8 (a + i))

/-- The event of V1 with the date/time block and SIZE given, and a payload. -/
def eventWith (date : List Byte) (size : Half) (data : List Byte) : State :=
  { State.reset with
    evKind := 1
    ev := Memory.storeAll [] 0
      ([0x00, 0x00, 0x00, 0x00, 0x00, 0x00, 0x00] ++ date ++ [0x00, 0x0A, 0x00, 0x06] ++ List.replicate 16 0xAA ++
        be16 size ++ data) }

/-- V1, the golden event. -/
def golden : State := eventWith [0x07, 0xE4, 0x01, 0x01, 0x00, 0x00, 0x00] 0 []

/-- V1 with a payload as large as MAX_DATA (V7), with one byte more (T10 row 2), and with a partly zero date (V5). -/
def largest : State := eventWith [0x07, 0xE4, 0x01, 0x01, 0x00, 0x00, 0x00] 479 []
def tooLarge : State := eventWith [0x07, 0xE4, 0x01, 0x01, 0x00, 0x00, 0x00] 480 []
def partlyZeroDate : State := eventWith [0x07, 0xE4, 0x00, 0x00, 0x00, 0x00, 0x00] 0 []

/-- V3, the sentinel event, with its clock draw. -/
def sentinelEvent : State :=
  { eventWith (List.replicate 7 0x00) 3 [0x01, 0x02, 0x03] with clockPort := [⟨2026, 11, 10, 17, 15, 0⟩] }

/-- The IV draws A0..AF and B0..BF. -/
def ivA : Block := Block.ofBytes (countUp 0xA0 16)
def ivB : Block := Block.ofBytes (countUp 0xB0 16)

/-- V1's frame bytes. -/
def goldenBytes : List Byte :=
  [0x00, 0x00, 0x00, 0x00, 0x00, 0x00, 0x00, 0x07, 0xE4, 0x01, 0x01, 0x00, 0x00, 0x00, 0x00, 0x0A, 0x00, 0x06] ++
    List.replicate 16 0xAA ++ [0x00, 0x00, 0x54, 0xD8]

/-- The state with a frame in FB. -/
def withFrame (s : State) (f : List Byte) : State :=
  { s with fb := Memory.storeAll [] 0 f, frameLen := BitVec.ofNat 16 f.length }

/-- V1's event and frame. -/
def built : State := withFrame golden goldenBytes

/-- A scheme, a key counting up from 00, and the port's answers. -/
def keyed (s : State) (kind len : Byte) (draws : List (Option Block)) : State :=
  { s with encKind := kind, keyLen := len, key := Memory.storeAll [] 0 (countUp 0 32), entropyPort := draws }

/-- CRC_APPEND's operands, and a frame as long as FB. -/
def ranged (s : State) (a e : Half) : State := { s with crcStart := a, crcEnd := e }
def fullFrame : State := { State.reset with frameLen := 517 }

/-- What a command leaves; the state after reset if it stopped, which none does. -/
def after (i : Instr) (s : State) : State :=
  match exec i s with
  | .next t => t
  | .fault _ => State.reset
  | .refused _ => State.reset

/-- BUILD and ENCRYPT answer a next state, said here without computing it. -/
theorem answers_build (s : State) : exec .build s = .next s.performBuild := rfl
theorem answers_encrypt (s : State) : exec .encrypt s = .next s.performEncrypt := rfl

/-! ### The commands -/

/-- V1, the golden vector. -/
theorem test_build_golden_frame :
    (after .build golden).frame = goldenBytes ∧ (after .build golden).crc = 0x54D8 ∧
      (after .build golden).obs = [.checksumComputed, .frameBuilt] := by decide +kernel

/-- V3: the clock's time under the sentinel. -/
theorem test_build_sentinel_frame :
    (after .build sentinelEvent).frame =
      [0x00, 0x00, 0x00, 0x00, 0x00, 0x00, 0x00, 0x07, 0xEA, 0x0B, 0x0A, 0x11, 0x0F, 0x00, 0x00, 0x0A, 0x00, 0x06] ++
        List.replicate 16 0xAA ++ [0x00, 0x03, 0x01, 0x02, 0x03, 0xE1, 0xBA] := by decide +kernel

/-- T8 row 3: a range over the old CRC leaves zero and lets the frame grow. -/
theorem test_crc_append_over_old_crc :
    let t := after .crcAppend (ranged built 1 38)
    t.crc = 0x0000 ∧ t.frameLen = 40 ∧ t.frame.drop 36 = [0x54, 0xD8, 0x00, 0x00] := by decide +kernel

/-- T8 row 15: the bound does not wrap. -/
theorem test_crc_append_no_wrap :
    let t := after .crcAppend (ranged built 0xFFFF 0xFFFF)
    t.status = 0x06 ∧ t.frameLen = 38 := by decide +kernel

/-- V13: the smallest frame under Scheme128. -/
theorem test_encrypt_smallest_frame :
    (after .encrypt (keyed (withFrame State.reset [0xFF, 0xFF]) 1 16 [some ivA])).packet =
      [0x01, 0x2A, 0xB1, 0xE7, 0x34, 0x6A, 0xA5, 0x00, 0x27, 0xA8, 0x0B, 0x1D, 0x03, 0xDF, 0x3D, 0x3F, 0xB3] ++
        countUp 0xA0 16 := by decide +kernel

/-- T20 row 6: a longer key is not cut to length, and the entropy port is not read. -/
theorem test_encrypt_wrong_key_length :
    let t := after .encrypt { keyed built 1 32 [some ivA] with pktLen := 65 }
    t.status = 0x03 ∧ t.pktLen = 0 ∧ t.entropyReads = 0 ∧ t.frameLen = 38 := by decide +kernel

/-- V6 by way of T23 row 1: the whole pipeline. -/
theorem test_send_golden_packet :
    (after .send (keyed golden 1 16 [some ivA])).packet =
      [0x01, 0xF0, 0xA6, 0xB1, 0xBC, 0xD9, 0xA2, 0x49, 0x6D, 0xFA, 0xF7, 0x91, 0x68, 0x81, 0x9C, 0x9A, 0x53] ++
      [0xF7, 0x71, 0x83, 0x31, 0x10, 0xBF, 0xC4, 0x56, 0xF3, 0x29, 0x06, 0x21, 0xA2, 0x50, 0xEC, 0x2A] ++
      [0x27, 0x39, 0xA4, 0x58, 0xBC, 0x7F, 0x86, 0x65, 0xAB, 0xD0, 0x09, 0x4D, 0x0C, 0x72, 0x68, 0x13] ++
        countUp 0xA0 16 := by decide +kernel

/-- T23 row 3: an unrecognised scheme; the frame stays, there is no packet. -/
theorem test_send_unknown_scheme :
    let t := after .send (keyed golden 9 16 [some ivA])
    t.status = 0x04 ∧ t.frame = goldenBytes ∧ t.pktLen = 0 ∧ t.entropyReads = 0 := by decide +kernel

/-- R166's worked example. -/
theorem test_crc_init : (after .crcInit { built with crc := 0x54D8 }).crc = 0xFFFF := by decide

/-- R167's worked example. -/
theorem test_crc_update : (after .crcUpdate { State.reset with crcDin := 0x31 }).crc = 0xC782 := by decide

/-- T1: the check value of "123456789"; the other starting value would give 31C3. -/
theorem test_crc16_check_value : crc16 (countUp 0x31 9) = 0x29B1 := by decide +kernel

/-- T2: one step in the three other forms. -/
theorem test_crc_byte_forms :
    crcByteSerial 0x1234 0x56 = 0x3C40 ∧ crcByteParallel 0x1234 0x56 = 0x3C40 ∧ crcByteTable 0x1234 0x56 = 0x3C40 := by
  decide +kernel

/-- R247, the first row: AES-128. -/
theorem test_aes_128 :
    aesEncrypt 4 (countUp 0x00 16) ((List.range 16).map (fun i => BitVec.ofNat 8 (0x11 * i))) =
      [0x69, 0xC4, 0xE0, 0xD8, 0x6A, 0x7B, 0x04, 0x30, 0xD8, 0xCD, 0xB7, 0x80, 0x70, 0xB4, 0xC5, 0x5A] := by
  decide +kernel

/-- R247: the last word of the expanded key, and AES-256's `Nk = 8` branch by its row. -/
theorem test_aes_key_expansion :
    (keyExpansion 4 [0x2B, 0x7E, 0x15, 0x16, 0x28, 0xAE, 0xD2, 0xA6, 0xAB, 0xF7, 0x15, 0x88, 0x09, 0xCF, 0x4F, 0x3C])[43]?
      = some [0xB6, 0x63, 0x0C, 0xA6] := by decide +kernel

theorem test_aes_256 :
    aesEncrypt 8 (countUp 0x00 32) ((List.range 16).map (fun i => BitVec.ofNat 8 (0x11 * i))) =
      [0x8E, 0xA2, 0xB7, 0xCA, 0x51, 0x67, 0x45, 0xBF, 0xEA, 0xFC, 0x49, 0x90, 0x4B, 0x49, 0x60, 0x89] := by
  decide +kernel

/-! ### Steps and host accesses -/

/-- The state one step leads to. -/
def stepped (s : State) : State :=
  match step s with
  | .next t => t
  | .fault _ => State.reset
  | .refused _ => State.reset

/-- T26: BUILD as the first command after reset gives TypeMismatchError. -/
theorem test_step_build_after_reset : (stepped (State.reset.withFetchWord 8 0x01)).status = 0x01 := by decide

/-- T24: code 0x05. -/
theorem test_step_illegal_code :
    stepped (built.before (.write .csr 0x00 0x05)) = { built with status := 0x07 } := by decide +kernel

/-- T25: a write to read-only STATUS is ignored, one to CRC_START goes in big-endian. -/
theorem test_step_host_writes :
    stepped (built.before (.write .csr 0x01 0xFF)) = built ∧
    (stepped ((stepped (built.before (.write .csr 0x08 0x01))).before (.write .csr 0x09 0x02))).crcStart = 0x0102 := by
  decide +kernel

/-- T25: reads beyond each space at MAX_DATA = 479 give 00. -/
theorem test_read_out_of_range :
    built.hostRead .csr 0x30 = 0 ∧ built.hostRead .ev 515 = 0 ∧ built.hostRead .fb 517 = 0 ∧
      built.hostRead .pb 545 = 0 := by decide +kernel

/-- Program P1's reads of `FRAME_LEN` and of FB offset 36: what read steps answer. -/
theorem test_step_reads :
    (stepped (built.before (.read .csr 0x0D))).answers = [0x26] ∧
    (stepped (built.before (.read .fb 36))).answers = [0x54] := by decide +kernel

/-- T26: a reset step gives the values of R50. -/
theorem test_step_reset :
    let t := stepped (built.before .reset)
    t.crc = 0xFFFF ∧ t.frameLen = 0 ∧ t.evKind = 0 ∧ t.obs = [] ∧ t.fb = [] := by decide +kernel

/-! ### Witnesses: for each statement with hypotheses, a state and operands that meet all of them -/

theorem witness_DecodeInvertsEncode : Instr.wellFormed .build = true ∧ Instr.wellFormed .crcUpdate = true := by decide

/-- Each range of R93's list at both ends. -/
theorem witness_IllegalCodeOnlySetsStatus :
    (∀ c ∈ [0x00#8, 0x05#8, 0x0F#8, 0x12#8, 0xFF#8],
      c.toNat = 0x00 ∨ (0x05 ≤ c.toNat ∧ c.toNat ≤ 0x0F) ∨ 0x12 ≤ c.toNat) ∧
    (built.before (.write .csr 0x00 0xFF)).inputs = .write .csr 0x00 0xFF :: [] := by decide +kernel

theorem witness_StepRunsTheDecodedCommand :
    (golden.before (.write .csr 0x00 0x01)).inputs = .write .csr 0x00 0x01 :: [] ∧ decode 0x01 = .ok .build :=
  ⟨by decide +kernel, rfl⟩

theorem witness_IdleWithoutHostAction : State.reset.inputs = [] := rfl

/-- A last read, a read before a command, and a read made twice, of a register, the last FB byte and beyond CSR. -/
theorem witness_HostReadsAreIdempotent :
    ∀ r ∈ [(Space.csr, 0x01), (.fb, 516), (.csr, 0x30)],
      (State.reset.before (.read r.1 r.2)).inputs = .read r.1 r.2 :: [] ∧
      ((State.reset.before (.write .csr 0x00 0x01)).before (.read r.1 r.2)).inputs =
        .read r.1 r.2 :: [.write .csr 0x00 0x01] ∧
      ((State.reset.before (.read r.1 r.2)).before (.read r.1 r.2)).inputs =
        .read r.1 r.2 :: .read r.1 r.2 :: [] := by decide

/-- A register, the first and last key byte, the last EV byte, and a location that ignores the write. -/
theorem witness_HostWriteSetsOneLocation :
    ∀ w ∈ [(Space.csr, 0x02), (.csr, 0x10), (.csr, 0x2F), (.ev, 514), (.ev, 0), (.fb, 0)],
      ¬ (w.1 = .csr ∧ w.2 = 0x00) ∧
      (built.before (.write w.1 w.2 0x55)).inputs = .write w.1 w.2 0x55 :: [] := by decide +kernel

/-- Read-only registers, the first offset beyond CSR and beyond EV, and both output spaces. -/
theorem witness_OtherHostWritesAreIgnored :
    ∀ w ∈ [(Space.csr, 0x01), (.csr, 0x06), (.csr, 0x0F), (.csr, 0x30), (.ev, 515), (.fb, 0), (.pb, 544)],
      ¬ (w.1 = .csr ∧ w.2 = 0x00) ∧ hostWritable built.cfg w.1 w.2 = false ∧
      (built.before (.write w.1 w.2 0x55)).inputs = .write w.1 w.2 0x55 :: [] := by decide +kernel

theorem witness_ResetGivesTheListedValues : (built.before .reset).inputs = .reset :: [] := by decide +kernel

theorem witness_CrcDetectsAnyByteChange : (0x00 : Byte) ≠ 0x01 := by decide

/-- The first two bytes of program P3. -/
theorem witness_StreamedCrcIsTheCrcOfTheMessage :
    ({ State.reset with
        inputs := [.write .csr 0x00 0x10, .write .csr 0x05 0x31, .write .csr 0x00 0x11, .write .csr 0x05 0x32,
          .write .csr 0x00 0x11, .read .csr 0x06] } : State).inputs =
      .write .csr 0x00 0x10 ::
        (([0x31, 0x32] : List Byte).flatMap (fun b => [.write .csr 0x05 b, .write .csr 0x00 0x11]) ++
          [.read .csr 0x06]) := by decide

/-- T8 rows 1, 5, 10 and 12: inside the frame, an empty range at its end, no frame, and the last range that fits. -/
theorem witness_CrcAppendWritesAfterTheRange :
    ∀ s ∈ [ranged built 1 36, ranged built 38 38, State.reset, ranged fullFrame 1 515],
      s.cfg.wellFormed = true ∧ s.crcStart.toNat ≤ s.crcEnd.toNat ∧ s.crcEnd.toNat ≤ s.frameLen.toNat ∧
        s.crcEnd.toNat + 2 ≤ fbCap s.cfg := by decide +kernel

/-- T8 rows 8, 7 and 13: one range for each ground of refusal. -/
theorem witness_CrcAppendRefusesBadRanges :
    (ranged built 37 36).crcEnd.toNat < (ranged built 37 36).crcStart.toNat ∧
    (ranged built 1 39).frameLen.toNat < (ranged built 1 39).crcEnd.toNat ∧
    fbCap (ranged fullFrame 1 516).cfg < (ranged fullFrame 1 516).crcEnd.toNat + 2 := by decide +kernel

/-- V1, V3, and the largest payload, `SIZE = MAX_DATA`. -/
theorem buildable_golden : golden.buildable := by unfold State.buildable; decide +kernel
theorem buildable_sentinel : sentinelEvent.buildable := by unfold State.buildable; decide +kernel
theorem buildable_largest : largest.buildable := by unfold State.buildable; decide +kernel

theorem witness_CrcAppendAgreesWithBuild :
    golden.cfg.wellFormed = true ∧ golden.buildable ∧ ∃ t, exec .build golden = .next t :=
  ⟨by decide, buildable_golden, _, answers_build _⟩

theorem witness_BuildMakesTheWireFrame :
    golden.cfg.wellFormed = true ∧ golden.buildable ∧
      largest.buildable :=
  ⟨by decide, buildable_golden, buildable_largest⟩

theorem witness_BuiltFrameFieldOffsets : golden.cfg.wellFormed = true ∧ golden.buildable :=
  ⟨by decide, buildable_golden⟩

theorem witness_BuildTouchesOnlyItsOutputs : golden.cfg.wellFormed = true ∧ golden.buildable :=
  ⟨by decide, buildable_golden⟩

theorem witness_BuiltFrameHasZeroResidue : sentinelEvent.cfg.wellFormed = true ∧ sentinelEvent.buildable :=
  ⟨by decide, buildable_sentinel⟩

/-- Both clauses: a date with some fields zero (V5), and the sentinel with a clock of four-digit year (V3). -/
theorem witness_BuildDateTimeBlock :
    (partlyZeroDate.cfg.wellFormed = true ∧ partlyZeroDate.buildable ∧
      ∃ x, 7 ≤ x ∧ x < 14 ∧ partlyZeroDate.byteAt .ev x ≠ 0x00) ∧
    (sentinelEvent.cfg.wellFormed = true ∧ sentinelEvent.buildable ∧
      (∀ x, 7 ≤ x → x < 14 → sentinelEvent.byteAt .ev x = 0x00) ∧ sentinelEvent.clockFourDigitYear) := by
  refine ⟨⟨by decide, by unfold State.buildable; decide +kernel, 7, by decide, by decide, by decide +kernel⟩,
    by decide, buildable_sentinel, ?_, by unfold State.clockFourDigitYear; decide +kernel⟩
  exact (State.sentinel_iff sentinelEvent).1 (by decide +kernel)

/-- T10 rows 4 and 2: not extended; `SIZE = MAX_DATA + 1`. -/
theorem witness_BuildRefusalsInOrder :
    State.reset.evKind ≠ 1 ∧
    (tooLarge.evKind = 1 ∧ tooLarge.cfg.maxData < tooLarge.size.toNat) := by decide +kernel

/-- The golden event, once with an old frame in FB. -/
theorem witness_BuildDependsOnTheEventAlone :
    golden.cfg.wellFormed = true ∧ built.cfg.wellFormed = true ∧ golden.buildable ∧ built.buildable ∧
      golden.sameEvent built 0 (36 + golden.size.toNat) ∧
      ((∀ x, 7 ≤ x → x < 14 → golden.byteAt .ev x = 0x00) → golden.utcNow = built.utcNow) ∧
      (∃ t, exec .build golden = .next t) ∧ ∃ t, exec .build built = .next t :=
  ⟨by decide, by decide, buildable_golden, buildable_golden, fun _ _ _ => rfl, fun _ => rfl,
    ⟨_, answers_build _⟩, _, answers_build _⟩

/-- T10 row 7: the golden event with `PKTTYPE` 55. -/
theorem witness_PacketTypeIsOutsideTheCrc :
    let s := golden.put .ev 0 [0x55]
    golden.cfg.wellFormed = true ∧ s.cfg.wellFormed = true ∧ golden.buildable ∧ s.buildable ∧
      golden.sameEvent s 1 (36 + golden.size.toNat) ∧
      ((∀ x, 7 ≤ x → x < 14 → golden.byteAt .ev x = 0x00) → golden.utcNow = s.utcNow) ∧
      golden.byteAt .ev 0 ≠ s.byteAt .ev 0 ∧
      (∃ t, exec .build golden = .next t) ∧ ∃ t, exec .build s = .next t := by
  have same : ∀ u : State, u.utcNow = (u.put .ev 0 [0x55]).utcNow := fun _ => rfl
  refine ⟨by decide, by decide, buildable_golden, by unfold State.buildable; decide +kernel, ?_, fun _ => same golden,
    by decide +kernel, ⟨_, answers_build _⟩, _, answers_build _⟩
  intro x h _
  rw [State.byteAt_put, if_neg (by simp; omega)]

theorem witness_SchemeTable : schemeOfKind 1 = some .scheme128 ∧ schemeOfKind 3 = some .scheme256 := by decide

/-- V14: a frame under None. -/
theorem witness_EncryptPassesThroughUnderNone : (keyed built 0 7 []).frameLen ≠ 0 ∧ (keyed built 0 7 []).encKind = 0 := by
  decide +kernel

/-- Each scheme with its key length, on V1's frame and on the two-byte frame of V13. -/
theorem keyed_built (draws : List (Option Block)) : (keyed built 1 16 draws).keyedFor .scheme128 := by
  unfold State.keyedFor; exact ⟨rfl, rfl⟩

theorem witness_EncryptAssemblesThePacket :
    (∀ s ∈ [(keyed built 1 16 [some ivA], Scheme.scheme128), (keyed built 2 24 [some ivA], .scheme192),
        (keyed (withFrame State.reset [0xFF, 0xFF]) 3 32 [some ivA], .scheme256)],
      s.1.cfg.wellFormed = true ∧ s.1.frameLen ≠ 0 ∧ s.1.frameLen.toNat ≤ fbCap s.1.cfg ∧
        (schemeOfKind s.1.encKind = some s.2 ∧ s.1.keyLen.toNat = schemeKeyLength s.2) ∧
        s.1.entropyDraw = some ivA) := by decide +kernel

theorem witness_EncryptTouchesOnlyThePacket :
    let s := keyed built 1 16 [some ivA]
    s.cfg.wellFormed = true ∧ s.frameLen ≠ 0 ∧ s.frameLen.toNat ≤ fbCap s.cfg ∧ s.keyedFor .scheme128 ∧
      s.entropyDraw = some ivA :=
  ⟨by decide, by decide, by decide, keyed_built _, rfl⟩

/-- T20 rows 12, 14, 10, 3 and 11: one state for each clause; row 14 has the wrong key length as well. -/
theorem witness_EncryptRefusalsInOrder :
    State.reset.frameLen = 0 ∧
    ((keyed built 4 15 []).frameLen ≠ 0 ∧ 3 < (keyed built 4 15 []).encKind.toNat) ∧
    ((keyed built 0 7 []).frameLen ≠ 0 ∧ (keyed built 0 7 []).encKind = 0) ∧
    ((keyed built 1 15 []).frameLen ≠ 0 ∧ schemeOfKind (keyed built 1 15 []).encKind = some .scheme128 ∧
      (keyed built 1 15 []).keyLen.toNat ≠ schemeKeyLength .scheme128) ∧
    ((keyed built 1 16 [none]).frameLen ≠ 0 ∧ (keyed built 1 16 [none]).keyedFor .scheme128 ∧
      (keyed built 1 16 [none]).entropyDraw = none) :=
  ⟨by decide, ⟨by decide, by decide⟩, ⟨by decide, by decide⟩, ⟨by decide, by decide, by decide⟩,
    by decide, keyed_built _, rfl⟩

theorem witness_DecryptionRecoversTheFrame :
    let s := keyed built 1 16 [some ivA]
    s.cfg.wellFormed = true ∧ s.frameLen ≠ 0 ∧ s.frameLen.toNat ≤ fbCap s.cfg ∧ s.keyedFor .scheme128 ∧
      s.entropyDraw = some ivA ∧ (s.cfg.cipher = .aes ∨ blockEncPermutes s.cfg.cipher) :=
  ⟨by decide, by decide, by decide, keyed_built _, rfl, .inl rfl⟩

/-- V6 and V9: the draws A0..AF and B0..BF in a row. -/
theorem witness_FreshIvGivesDifferentPackets :
    let s := keyed built 1 16 [some ivA, some ivB]
    s.cfg.wellFormed = true ∧ 2 ≤ s.frameLen.toNat ∧ s.frameLen.toNat ≤ fbCap s.cfg ∧ s.keyedFor .scheme128 ∧
      s.entropyDraw = some ivA ∧ (s.cfg.cipher = .aes ∨ blockEncPermutes s.cfg.cipher) ∧
      ∃ t, exec .encrypt s = .next t ∧ t.ivFresh ∧ t.entropyDraw = some ivB := by
  refine ⟨by decide, by decide, by decide, keyed_built _, rfl, .inl rfl, _, answers_encrypt _, ?_, ?_⟩
  · rw [State.performEncrypt_some (by decide) (keyed_built _) rfl, State.sealed_eq]
    intro iv h
    have : ivB = iv := by simpa [State.entropyDraw, keyed] using h
    subst this
    show ivB ∉ ([ivA] : List Block)
    decide +kernel
  · rw [State.performEncrypt_some (by decide) (keyed_built _) rfl, State.sealed_eq]
    rfl

/-- V1's frame with two packet-type bytes, and other registers that differ. -/
def otherwise (s : State) : State := { (s.put .fb 0 [0x55]) with crc := 0x1234, evKind := 7 }

theorem witness_EncryptDependsOnFrameKeyAndDrawAlone :
    let s := keyed built 1 16 [some ivA]
    s.cfg = (otherwise s).cfg ∧ s.cfg.wellFormed = true ∧ s.frameLen.toNat ≤ fbCap s.cfg ∧
      s.encKind ≠ 0 ∧ s.encKind = (otherwise s).encKind ∧ s.keyLen = (otherwise s).keyLen ∧
      s.frameLen = (otherwise s).frameLen ∧
      (∀ i, i < 32 → s.byteAt .key i = (otherwise s).byteAt .key i) ∧
      (∀ x, 1 ≤ x → x < s.frameLen.toNat → s.byteAt .fb x = (otherwise s).byteAt .fb x) ∧
      s.entropyDraw = (otherwise s).entropyDraw ∧ s.byteAt .fb 0 ≠ (otherwise s).byteAt .fb 0 ∧
      (∃ t, exec .encrypt s = .next t) ∧ ∃ t, exec .encrypt (otherwise s) = .next t := by
  have same : ∀ u : State, u.cfg = (otherwise u).cfg ∧ u.encKind = (otherwise u).encKind ∧
      u.keyLen = (otherwise u).keyLen ∧ u.frameLen = (otherwise u).frameLen ∧
      (∀ i, u.byteAt .key i = (otherwise u).byteAt .key i) ∧ u.entropyDraw = (otherwise u).entropyDraw :=
    fun _ => ⟨rfl, rfl, rfl, rfl, fun _ => rfl, rfl⟩
  have frame : ∀ (u : State) (x : Nat), 1 ≤ x → u.byteAt .fb x = (otherwise u).byteAt .fb x := fun u x h =>
    (State.byteAt_beside (s := u) (t := otherwise u) (b := .fb) (a := 0) (bs := [0x55]) rfl rfl (by simp; omega)).symm
  obtain ⟨h1, h2, h3, h4, h5, h6⟩ := same (keyed built 1 16 [some ivA])
  exact ⟨h1, by decide, by decide, by decide, h2, h3, h4, fun i _ => h5 i, fun x h _ => frame _ x h, h6,
    by decide +kernel, ⟨_, answers_encrypt _⟩, _, answers_encrypt _⟩

/-- One BUILD of each ending. -/
theorem witness_SendIsBuildThenEncrypt :
    (∃ t, exec .build golden = .next t ∧ t.err = 0) ∧ ∃ t, exec .build State.reset = .next t ∧ t.err ≠ 0 := by
  refine ⟨⟨_, answers_build _, ?_⟩, _, answers_build _, by decide⟩
  rw [State.performBuild_of_buildable buildable_golden, State.built_eq]
  rfl

/-- T23 row 1. -/
theorem witness_SendCarriesTheEventToThePacket :
    let s := keyed golden 1 16 [some ivA]
    s.cfg.wellFormed = true ∧ s.buildable ∧ s.keyedFor .scheme128 ∧ s.entropyDraw = some ivA :=
  ⟨by decide, buildable_golden, by unfold State.keyedFor; exact ⟨by decide, by decide⟩, rfl⟩

/-- T23 row 2. -/
theorem witness_SendUnderNoneSendsTheFrame :
    let s := keyed golden 0 0 []
    s.cfg.wellFormed = true ∧ s.buildable ∧ s.encKind = 0 :=
  ⟨by decide, buildable_golden, by decide⟩

/-- T23 rows 7, 3, 4 and 5. -/
theorem witness_SendFailuresLeaveNoPacket :
    ¬ State.reset.buildable ∧
    ((keyed golden 9 0 []).cfg.wellFormed = true ∧ (keyed golden 9 0 []).buildable ∧
      3 < (keyed golden 9 0 []).encKind.toNat) ∧
    ((keyed golden 3 16 []).cfg.wellFormed = true ∧ (keyed golden 3 16 []).buildable ∧
      schemeOfKind (keyed golden 3 16 []).encKind = some .scheme256 ∧
      (keyed golden 3 16 []).keyLen.toNat ≠ schemeKeyLength .scheme256) ∧
    ((keyed golden 1 16 [none]).cfg.wellFormed = true ∧ (keyed golden 1 16 [none]).buildable ∧
      (keyed golden 1 16 [none]).keyedFor .scheme128 ∧ (keyed golden 1 16 [none]).entropyDraw = none) :=
  ⟨fun h => absurd h.1 (by decide), ⟨by decide, buildable_golden, by decide⟩,
    ⟨by decide, buildable_golden, by decide, by decide⟩,
    by decide, buildable_golden, by unfold State.keyedFor; exact ⟨by decide, by decide⟩, rfl⟩

theorem witness_CommandsLeaveTheInputsAlone : ∃ t, exec .crcInit golden = .next t := ⟨_, rfl⟩

/-- A failing BUILD, ENCRYPT and SEND, the last with its BUILD stage's code 1 and, on T10 row 2's event, 2. -/
theorem witness_FailureWithdrawsTheOutput :
    (∃ t, exec .build State.reset = .next t ∧ t.err ≠ 0) ∧ (∃ t, exec .encrypt State.reset = .next t ∧ t.err ≠ 0) ∧
      (∃ t, exec .send State.reset = .next t ∧ t.err ≠ 0 ∧ t.err = 1) ∧
      (after .send tooLarge).err = 2 :=
  ⟨⟨_, rfl, by decide⟩, ⟨_, rfl, by decide⟩, ⟨_, rfl, by decide, by decide⟩, by decide +kernel⟩

theorem witness_StatusCodesOfEachCommand :
    State.reset.cfg.wellFormed = true ∧ (∃ t, exec .build State.reset = .next t) ∧
      (∃ t, exec .crcAppend State.reset = .next t) ∧ (∃ t, exec .encrypt State.reset = .next t) ∧
      (∃ t, exec .send State.reset = .next t) ∧ (∃ t, exec .crcInit State.reset = .next t) ∧
      ∃ t, exec .crcUpdate State.reset = .next t :=
  ⟨by decide, ⟨_, rfl⟩, ⟨_, rfl⟩, ⟨_, rfl⟩, ⟨_, rfl⟩, ⟨_, rfl⟩, _, rfl⟩

theorem witness_PortsAreReadAtMostOncePerCommand : ∃ t, exec .build sentinelEvent = .next t :=
  ⟨_, answers_build _⟩

/-- A state with a frame, a key and a command to come meets the invariant, and its step answers a next state. -/
theorem witness_EveryStepKeepsTheInvariant :
    let s := (keyed built 1 16 [some ivA]).before (.write .csr 0x00 0x03)
    s.Inv ∧ ∃ t, step s = .next t := by
  have h : ∀ a, a < 38 → (built.fb.lookup a).isSome = true := by decide +kernel
  refine ⟨⟨by decide, by decide +kernel, by decide +kernel, .inr (by decide +kernel), .inl rfl, by decide +kernel,
    by decide +kernel, by decide +kernel, by decide +kernel, ⟨rfl, rfl, rfl⟩, fun a ha => h a ha, ?_, List.nodup_nil⟩,
    _, rfl⟩
  intro a ha
  exact absurd ha (Nat.not_lt_zero a)

end Sys2Proof.Tests
end

section
/-! The statements about the state (10_state.md): what the idle CORE, a reset and a command leave alone, and the
invariant of R51. The invariant is kept by each shared operation on its own, so that a command keeps it because the
operations it is made of do. -/

namespace Sys2Proof.Machine

/-! ### Idle and reset -/

/-- Settles O5. -/
theorem idleWithoutHostAction : Obligations.IdleWithoutHostAction :=
  fun _ => step_nil

/-- No buffer byte is written after a reset, so each reads as its new free value (10_state.md R50; log 6). -/
theorem State.resetCore_byteAt (s : State) (b : Buffer) (a : Nat) :
    s.resetCore.byteAt b a = Config.unwritten b s.resetCore.resets a := by
  cases b <;> rfl

/-- Settles O10: the step performs the reset, whose fields stand in `State.resetCore`. -/
theorem resetGivesTheListedValues : Obligations.ResetGivesTheListedValues := by
  intro s rest h
  exact ⟨_, step_cons h, rfl, rfl, rfl, rfl, rfl, rfl, rfl, rfl, rfl, rfl, rfl, rfl, rfl, rfl,
    State.resetCore_byteAt _, rfl, ⟨rfl, rfl⟩, rfl, rfl, rfl⟩

/-! ### The older STATUS -/

/-- The first act of a command overwrites `STATUS` (10_state.md R37). -/
theorem State.beginCommand_of_status (s : State) (old : Byte) :
    State.beginCommand { s with status := old } = s.beginCommand := rfl

/-- Settles O46: no command reads `STATUS` before its first act has overwritten it. -/
theorem statusOfOlderCommandsIsGone : Obligations.StatusOfOlderCommandsIsGone := by
  intro i s old
  have hb := s.beginCommand_of_status old
  have hbuild : State.performBuild { s with status := old } = s.performBuild := congrArg State.checkedBuild hb
  cases i with
  | build => exact congrArg Host.Outcome.next hbuild
  | encrypt => exact congrArg (fun t => Host.Outcome.next t.checkedEncrypt) hb
  | send => simp only [exec, execSend, hbuild]
  | crcAppend => rfl
  | crcInit => rfl
  | crcUpdate => rfl

/-! ### The inputs -/

theorem State.sameInputs.refl (s : State) : s.sameInputs s := by simp [State.sameInputs]

theorem State.sameInputs.trans {s t u : State} (h : s.sameInputs t) (h' : t.sameInputs u) : s.sameInputs u := by
  unfold State.sameInputs at *
  simp_all

/-- A command that fails before any other effect writes no input (60_exceptions.md R262, R266). -/
theorem State.sameInputs_fail (s : State) (st : Stage) (e : CmdError) :
    s.sameInputs (s.beginCommand.raise st e) := by
  rw [State.fail_eq]
  exact State.sameInputs.refl s

/-- BUILD writes no input, however it ends. -/
theorem State.sameInputs_performBuild (s : State) : s.sameInputs s.performBuild := by
  rcases s.performBuild_cases with ⟨_, e⟩ | ⟨_, _, e⟩ | ⟨_, _, e⟩ <;> rw [e]
  · exact s.sameInputs_fail _ _
  · exact s.sameInputs_fail _ _
  · rw [State.built_eq]
    exact State.sameInputs.refl s

/-- ENCRYPT writes no input, however it ends. -/
theorem State.sameInputs_performEncrypt (s : State) : s.sameInputs s.performEncrypt := by
  rcases s.performEncrypt_cases with ⟨_, e⟩ | ⟨_, _, e⟩ | ⟨_, _, e⟩ | ⟨_, _, _, _, e⟩ | ⟨_, _, _, _, _, e⟩ |
    ⟨_, _, _, _, _, _, e⟩ <;> rw [e]
  · exact s.sameInputs_fail _ _
  · exact s.sameInputs_fail _ _
  · rw [State.passThrough_eq]
    exact State.sameInputs.refl s
  · exact s.sameInputs_fail _ _
  · rw [State.entropyFailure_eq]
    exact State.sameInputs.refl s
  · rw [State.sealed_eq]
    exact State.sameInputs.refl s

/-- SEND ends as BUILD did, without a packet, or with an ENCRYPT after it (43_pipeline.md R220). -/
theorem execSend_cases (s : State) :
    (s.performBuild.err ≠ 0 ∧ execSend s = .next s.performBuild.withdrawPacket) ∨
    (s.performBuild.err = 0 ∧ execSend s = .next s.performBuild.performEncrypt) := by
  by_cases h : s.performBuild.err = 0
  · exact .inr ⟨h, if_neg (not_not.2 h)⟩
  · exact .inl ⟨h, if_pos h⟩

/-- Settles O43, command by command, over all of each command's endings. -/
theorem commandsLeaveTheInputsAlone : Obligations.CommandsLeaveTheInputsAlone := by
  intro i s t h
  cases i with
  | build => cases h; exact s.sameInputs_performBuild
  | encrypt => cases h; exact s.sameInputs_performEncrypt
  | send =>
    rcases execSend_cases s with ⟨_, e⟩ | ⟨_, e⟩ <;> cases e.symm.trans h
    · exact s.sameInputs_performBuild.trans (State.sameInputs.refl _)
    · exact s.sameInputs_performBuild.trans (State.sameInputs_performEncrypt _)
  | crcAppend =>
    rcases execCrcAppend_cases s with ⟨_, e⟩ | ⟨_, e⟩ <;> cases e.symm.trans h <;> exact State.sameInputs.refl s
  | crcInit => cases h; exact State.sameInputs.refl s
  | crcUpdate => cases h; exact State.sameInputs.refl s

/-! ### The invariant of the shared operations -/

/-- Settles O49. -/
theorem resetMeetsTheInvariant : Obligations.ResetMeetsTheInvariant where
  params := by decide
  reserved := by decide
  errCode := by decide
  frameLen := .inl rfl
  pktLen := .inl rfl
  keyForm := ⟨rfl, rfl⟩
  evForm := ⟨rfl, rfl⟩
  fbForm := ⟨rfl, rfl⟩
  pbForm := ⟨rfl, rfl⟩
  internal := ⟨rfl, rfl, rfl⟩
  frameBytes := fun a ha => absurd ha (Nat.not_lt_zero a)
  pktBytes := fun a ha => absurd ha (Nat.not_lt_zero a)
  ivs := List.nodup_nil

/-- A reset keeps the parameters in bounds and puts all else at a value that meets the invariant. -/
theorem State.Inv.resetCore {s : State} (h : s.Inv) : s.resetCore.Inv :=
  { resetMeetsTheInvariant with params := h.params, frameLen := .inl rfl, pktLen := .inl rfl }

/-- `STATUS` is legal when it is a code of R261, the reserved bits 0 (10_state.md R37). -/
theorem State.Inv.withStatus {s : State} (h : s.Inv) {v : Byte} (hv : v.toNat ≤ 7) :
    State.Inv { s with status := v } := by
  have fields : ∀ v : Byte, v.toNat ≤ 7 → v.extractLsb' 4 4 = 0 ∧ (v.extractLsb' 0 4).toNat ≤ 7 := by decide
  obtain ⟨hres, herr⟩ := fields v hv
  exact { h with reserved := hres, errCode := herr }

theorem State.Inv.beginCommand {s : State} (h : s.Inv) : s.beginCommand.Inv :=
  h.withStatus (by decide)

/-- Every error has a legal code, and the field `STATUS.ERR` is written alone (60_exceptions.md R261, R266). -/
theorem State.Inv.setErr {s : State} (h : s.Inv) (e : CmdError) : (s.setErr e.code).Inv :=
  h.withStatus (by rw [h.reserved]; cases e <;> decide)

theorem State.Inv.withdrawFrame {s : State} (h : s.Inv) : s.withdrawFrame.Inv :=
  { h with frameLen := .inl rfl, frameBytes := fun a ha => absurd ha (Nat.not_lt_zero a) }

theorem State.Inv.withdrawPacket {s : State} (h : s.Inv) : s.withdrawPacket.Inv :=
  { h with pktLen := .inl rfl, pktBytes := fun a ha => absurd ha (Nat.not_lt_zero a) }

/-- Error entry keeps the invariant: a legal code, and a length that only becomes 0 (60_exceptions.md R266). -/
theorem State.Inv.raise {s : State} (h : s.Inv) (st : Stage) (e : CmdError) : (s.raise st e).Inv := by
  cases st with
  | build => exact (h.setErr e).withdrawFrame
  | crcAppend => exact h.setErr e
  | encrypt => exact (h.setErr e).withdrawPacket
  | dispatch => exact h.setErr e

/-- A new frame in FB, of a legal length and written throughout. -/
theorem State.Inv.withFrame {s : State} (h : s.Inv) {m : Memory} {n : Nat} (h2 : 2 ≤ n) (hn : n ≤ fbCap s.cfg)
    (hm : m.wf = true ∧ m.within (fbCap s.cfg) = true) (hw : ∀ a, a < n → (m.lookup a).isSome = true) :
    State.Inv { s with fb := m, frameLen := BitVec.ofNat 16 n } := by
  have hlen : (BitVec.ofNat 16 n).toNat = n := by
    have hc := h.params
    simp only [Params.wellFormed, decide_eq_true_eq, fbCap, headerLength, BitVec.toNat_ofNat] at *
    omega
  exact { h with
    frameLen := .inr (by rw [hlen]; exact ⟨h2, hn⟩)
    fbForm := hm
    frameBytes := fun a ha => hw a (by rwa [hlen] at ha) }

/-- A new packet in PB, of a legal length and written throughout. -/
theorem State.Inv.withPacket {s : State} (h : s.Inv) {m : Memory} {n : Nat} (h2 : 2 ≤ n) (hn : n ≤ pbCap s.cfg)
    (hm : m.wf = true ∧ m.within (pbCap s.cfg) = true) (hw : ∀ a, a < n → (m.lookup a).isSome = true) :
    State.Inv { s with pb := m, pktLen := BitVec.ofNat 16 n } := by
  have hlen : (BitVec.ofNat 16 n).toNat = n := by
    have hc := h.params
    simp only [Params.wellFormed, decide_eq_true_eq, pbCap, ceil16, fbCap, headerLength, blockLen,
      BitVec.toNat_ofNat] at *
    omega
  exact { h with
    pktLen := .inr (by rw [hlen]; exact ⟨h2, hn⟩)
    pbForm := hm
    pktBytes := fun a ha => hw a (by rwa [hlen] at ha) }

/-- A drawn IV joins IV_HISTORY only where it is not there yet (10_state.md R48; log 11). -/
theorem State.Inv.recordIv {s : State} (h : s.Inv) (iv : Block) : (s.recordIv iv).Inv :=
  { h with
    ivs := by
      rw [State.recordIv_ivHistory]
      split
      · exact h.ivs
      · exact List.nodup_cons.2 ⟨‹_›, h.ivs⟩ }

/-! ### The invariant of the commands -/

/-- A successful BUILD writes every byte of its frame. -/
theorem State.Inv.buildFrame {s : State} (h : s.Inv) (hb : s.buildable) : s.beginCommand.buildFrame.Inv := by
  have hcap := (State.frameLen_bound h.params hb).1
  obtain ⟨hwf, hin⟩ := State.writeFields_form s.beginCommand h.fbForm.1 h.fbForm.2
    (show 36 + s.size.toNat ≤ fbCap s.cfg by omega)
  rw [State.built_eq]
  refine { h.beginCommand.withFrame (n := 38 + s.size.toNat) (by omega) hcap
    ⟨Memory.wf_storeAll hwf _ (be16 s.frameCrc),
      Memory.within_storeAll hin (36 + s.size.toNat) _ (by rw [length_be16]; omega)⟩ ?_ with }
  intro a ha
  rw [Memory.isSome_storeAll, length_be16]
  by_cases hcrc : 36 + s.size.toNat ≤ a
  · exact .inl ⟨hcrc, by omega⟩
  · exact .inr (State.writeFields_written s.beginCommand a (Nat.lt_of_not_le hcrc))

theorem State.Inv.performBuild {s : State} (h : s.Inv) : s.performBuild.Inv := by
  rcases s.performBuild_cases with ⟨_, e⟩ | ⟨_, _, e⟩ | ⟨hk, hs, e⟩ <;> rw [e]
  · exact h.beginCommand.raise _ _
  · exact h.beginCommand.raise _ _
  · exact h.buildFrame ⟨hk, hs⟩

/-- A present frame is 2 to FB_CAP bytes long (10_state.md R41). -/
theorem State.Inv.frameLen_of_present {s : State} (h : s.Inv) (h0 : s.frameLen ≠ 0) :
    2 ≤ s.frameLen.toNat ∧ s.frameLen.toNat ≤ fbCap s.cfg :=
  h.frameLen.resolve_left h0

/-- PB has room for every frame that FB has room for (00_scope.md R11, R13). -/
theorem fbCap_le_pbCap (p : Params) : fbCap p ≤ pbCap p := by
  simp only [pbCap, ceil16, blockLen]
  omega

/-- The packet under None is the whole frame (42_encryption_wrapper.md R196). -/
theorem State.Inv.passThrough {s : State} (h : s.Inv) (h0 : s.frameLen ≠ 0) : s.passThrough.Inv := by
  obtain ⟨h2, hf⟩ := h.frameLen_of_present h0
  have hp := Nat.le_trans hf (fbCap_le_pbCap s.cfg)
  refine { h.withPacket (m := s.pb.storeAll 0 s.frame) h2 hp
    ⟨Memory.wf_storeAll h.pbForm.1 _ _,
      Memory.within_storeAll h.pbForm.2 _ _ (by rwa [State.length_frame, Nat.zero_add])⟩ ?_ with }
  intro a ha
  rw [Memory.isSome_storeAll, State.length_frame]
  exact .inl ⟨Nat.zero_le _, by omega⟩

/-- A successful encryption writes every byte of its packet (42_encryption_wrapper.md R204). -/
theorem State.Inv.sealFrame {s : State} (h : s.Inv) (h0 : s.frameLen ≠ 0) (k : Scheme) (iv : Block) :
    (s.sealFrame k iv).Inv := by
  have hcap := (State.packetLen_bound h.params (h.frameLen_of_present h0).2).1
  have hready := s.ready_paddedLen iv
  have hpb : (s.loadPlain.entropyRead.loadIv iv).pb = s.pb := by rw [State.ready_eq]
  have hform := State.assemble_form (s.loadPlain.entropyRead.loadIv iv) k (b := pbCap s.cfg)
    (by rw [hpb]; exact h.pbForm.1) (by rw [hpb]; exact h.pbForm.2) (by rw [hready]; exact hcap)
  have hwritten : ∀ a, a < 17 + s.paddedLen → ((s.sealFrame k iv).pb.lookup a).isSome = true := by
    intro a ha
    rw [State.sealFrame_pb]
    exact State.assemble_written _ k a (by rwa [hready])
  rw [← State.sealFrame_pb] at hform
  rw [State.sealFrame_eq]
  exact { (h.recordIv iv).withPacket (by omega) hcap hform hwritten with internal := ⟨rfl, rfl, rfl⟩ }

theorem State.Inv.performEncrypt {s : State} (h : s.Inv) : s.performEncrypt.Inv := by
  rcases s.performEncrypt_cases with ⟨_, e⟩ | ⟨_, _, e⟩ | ⟨h0, _, e⟩ | ⟨_, _, _, _, e⟩ | ⟨_, _, _, _, _, e⟩ |
    ⟨k, iv, h0, _, _, _, e⟩ <;> rw [e]
  · exact h.beginCommand.raise _ _
  · exact h.beginCommand.raise _ _
  · exact h.beginCommand.passThrough h0
  · exact h.beginCommand.raise _ _
  · rw [State.entropyFailure_eq]
    exact { (h.withStatus (v := 5) (by decide)).withdrawPacket with internal := ⟨rfl, rfl, rfl⟩ }
  · exact h.beginCommand.sealFrame h0 k iv

/-- CRC_APPEND over an accepted range: the frame now ends after its CRC, and before it lie bytes of the old frame
(41_checksum_engine.md R171, R172). -/
theorem State.Inv.appendCrc {s : State} (h : s.Inv) (hr : s.crcRangeOk = true) (c : Half) :
    State.Inv { s with
      fb := s.fb.storeAll s.crcEnd.toNat (be16 c), frameLen := BitVec.ofNat 16 (s.crcEnd.toNat + 2) } := by
  obtain ⟨_, hold, hcap⟩ := s.crcRangeOk_iff.1 hr
  refine h.withFrame (by omega) hcap
    ⟨Memory.wf_storeAll h.fbForm.1 _ _, Memory.within_storeAll h.fbForm.2 _ _ (by rwa [length_be16])⟩ ?_
  intro a ha
  rw [Memory.isSome_storeAll, length_be16]
  by_cases hcrc : s.crcEnd.toNat ≤ a
  · exact .inl ⟨hcrc, ha⟩
  · exact .inr (h.frameBytes a (by omega))

/-- Every command keeps the invariant. -/
theorem State.Inv.exec {s t : State} (h : s.Inv) {i : Instr} (ht : exec i s = .next t) : t.Inv := by
  cases i with
  | build => cases ht; exact h.performBuild
  | encrypt => cases ht; exact h.performEncrypt
  | send =>
    rcases execSend_cases s with ⟨_, e⟩ | ⟨_, e⟩ <;> cases e.symm.trans ht
    · exact h.performBuild.withdrawPacket
    · exact h.performBuild.performEncrypt
  | crcAppend =>
    rcases execCrcAppend_cases s with ⟨hr, e⟩ | ⟨_, e⟩ <;> cases e.symm.trans ht
    · exact { h.beginCommand.appendCrc hr _ with }
    · exact h.withStatus (by decide)
  | crcInit => cases ht; exact { h.beginCommand with }
  | crcUpdate => cases ht; exact { h.beginCommand with }

/-! ### The invariant of the host's actions -/

/-- A write to `CMD` keeps the invariant, an illegal code too (43_pipeline.md R224, R225). -/
theorem State.Inv.runCommand {s t : State} (h : s.Inv) {c : Byte} (ht : runCommand c s = .next t) : t.Inv := by
  cases hd : decode c with
  | ok i => exact h.exec ((runCommand_ok hd s).symm.trans ht)
  | error r =>
    cases (runCommand_illegal hd s).symm.trans ht
    exact h.withStatus (by decide)

/-- A key byte is written within KEY (20_memory.md R61). -/
theorem State.Inv.putKey {s : State} (h : s.Inv) {i : Nat} (hi : i < 32) (v : Byte) : (s.put .key i [v]).Inv :=
  { h with keyForm := ⟨Memory.wf_storeAll h.keyForm.1 _ _, Memory.within_storeAll h.keyForm.2 _ _ hi⟩ }

/-- An event byte is written within EV (20_memory.md R60). -/
theorem State.Inv.putEvent {s : State} (h : s.Inv) {a : Nat} (ha : a < evSize s.cfg) (v : Byte) :
    (s.put .ev a [v]).Inv :=
  { h with evForm := ⟨Memory.wf_storeAll h.evForm.1 _ _, Memory.within_storeAll h.evForm.2 _ _ ha⟩ }

/-- A host write keeps the invariant: the input registers it can reach are free of it. -/
theorem State.Inv.hostWrite {s : State} (h : s.Inv) (sp : Space) (off : Nat) (v : Byte) :
    (s.hostWrite sp off v).Inv := by
  rcases s.hostWrite_cases sp off v with ⟨_, _, e⟩ | ⟨_, _, e⟩ | ⟨_, _, e⟩ | ⟨_, _, e⟩ | ⟨_, _, e⟩ | ⟨_, _, e⟩ |
    ⟨_, _, e⟩ | ⟨_, _, e⟩ | ⟨i, _, hi, _, e⟩ | ⟨_, ha, e⟩ | ⟨_, e⟩ <;> rw [e]
  iterate 8 exact { h with }
  · exact h.putKey hi v
  · exact h.putEvent ha v
  · exact h

/-- Every action of the host or the platform keeps the invariant. -/
theorem State.Inv.perform {s t : State} (h : s.Inv) {a : HostAction} (ht : perform a s = .next t) : t.Inv := by
  cases a with
  | write sp off v =>
    by_cases hcmd : sp = .csr ∧ off = 0x00
    · obtain ⟨rfl, rfl⟩ := hcmd
      exact h.runCommand ((perform_cmd v s).symm.trans ht)
    · cases (perform_write hcmd v s).symm.trans ht
      exact h.hostWrite sp off v
  | read sp off => cases ht; exact { h with }
  | reset => cases ht; exact h.resetCore

/-- Settles O50: an idle step changes nothing, and each action the host can have next keeps the invariant. -/
theorem everyStepKeepsTheInvariant : Obligations.EveryStepKeepsTheInvariant := by
  intro s t h ht
  cases hin : s.inputs with
  | nil => cases (step_nil hin).symm.trans ht; exact h
  | cons a rest =>
    have hrest : State.Inv { s with inputs := rest } := { h with }
    exact hrest.perform ((step_cons hin).symm.trans ht)

end Sys2Proof.Machine
end

section
/-! The statements about the host's access to the four spaces (20_memory.md R60 to R68). The CSR space is read as one
row of 48 bytes, so that a write to a register, or to a key byte, sets one entry of the row. -/

namespace Sys2Proof.Machine

/-! ### What each location reads as -/

/-- The CSR space as a row of bytes, in the order of the offsets (20_memory.md R61). -/
def State.csrBytes (s : State) : List Byte :=
  [0x00, s.status, s.evKind, s.encKind, s.keyLen, s.crcDin, hi8 s.crc, lo8 s.crc, hi8 s.crcStart, lo8 s.crcStart,
    hi8 s.crcEnd, lo8 s.crcEnd, hi8 s.frameLen, lo8 s.frameLen, hi8 s.pktLen, lo8 s.pktLen] ++ s.bytes .key 0 32

@[simp] theorem State.length_csrBytes (s : State) : s.csrBytes.length = 48 := by
  simp [State.csrBytes]

/-- A key byte reads as it stands in KEY (20_memory.md R61). -/
theorem State.hostRead_key (s : State) {i : Nat} (hi : i < 32) : s.hostRead .csr (0x10 + i) = s.byteAt .key i := by
  show s.readCsr (0x10 + i) = _
  unfold State.readCsr
  split <;> try omega
  rw [if_pos ((isKeyOffset_iff _).2 (by omega)), keyOffset, Nat.add_sub_cancel_left]

/-- An offset beyond the CSR space reads as 0x00 (20_memory.md R68). -/
theorem State.hostRead_csr_beyond (s : State) {off : Nat} (h : 0x30 ≤ off) : s.hostRead .csr off = 0x00 := by
  show s.readCsr off = _
  unfold State.readCsr
  split <;> try omega
  exact if_neg fun hk => absurd ((isKeyOffset_iff _).1 hk).2 (by omega)

/-- The row of bytes is what the CSR space reads as. -/
theorem State.hostRead_csr (s : State) (off : Nat) : s.hostRead .csr off = s.csrBytes.getD off 0x00 := by
  by_cases hreg : off < 0x10
  · interval_cases off <;> rfl
  by_cases hkey : off < 0x30
  · obtain ⟨i, rfl⟩ := Nat.exists_eq_add_of_le (Nat.le_of_not_lt hreg)
    rw [s.hostRead_key (by omega), State.csrBytes, List.getD_append_right _ _ _ _ (Nat.le_add_right 16 i)]
    simp [State.bytes, show i < 32 by omega]
  · rw [s.hostRead_csr_beyond (Nat.le_of_not_lt hkey), List.getD_eq_default _ _ (by simpa using hkey)]

/-- An event byte reads as it stands in EV (20_memory.md R60). -/
theorem State.hostRead_ev (s : State) {off : Nat} (h : off < evSize s.cfg) :
    s.hostRead .ev off = s.byteAt .ev off := if_pos h

/-- An offset beyond EV reads as 0x00 (20_memory.md R68). -/
theorem State.hostRead_ev_beyond (s : State) {off : Nat} (h : evSize s.cfg ≤ off) : s.hostRead .ev off = 0x00 :=
  if_neg (Nat.not_lt.2 h)

/-- An output byte within the valid length reads as it stands in its buffer (10_state.md R41, R42). -/
theorem State.readOutput_valid (s : State) (b : Buffer) {cap len off : Nat} (hl : off < len) (hc : off < cap) :
    s.readOutput b cap len off = s.byteAt b off := if_pos ⟨hl, hc⟩

/-- An offset beyond an output space reads as 0x00 (20_memory.md R68). -/
theorem State.readOutput_beyond (s : State) (b : Buffer) {cap off : Nat} (len : Nat) (h : cap ≤ off) :
    s.readOutput b cap len off = 0x00 :=
  (if_neg fun hin => Nat.not_lt.2 h hin.2).trans (if_neg (Nat.not_lt.2 h))

/-- Settles O7, a location of the map at a time; a 16-bit register is its two bytes put together (00_scope.md R18). -/
theorem hostReadMap : Obligations.HostReadMap := fun s =>
  ⟨rfl, rfl, rfl, rfl, rfl, rfl,
    u16_hi8_lo8 s.crc, u16_hi8_lo8 s.crcStart, u16_hi8_lo8 s.crcEnd, u16_hi8_lo8 s.frameLen, u16_hi8_lo8 s.pktLen,
    fun _ => s.hostRead_key, fun _ => s.hostRead_csr_beyond,
    fun _ => s.hostRead_ev, fun _ => s.hostRead_ev_beyond,
    fun _ => s.readOutput_valid .fb, fun _ => s.readOutput_beyond .fb _,
    fun _ => s.readOutput_valid .pb, fun _ => s.readOutput_beyond .pb _⟩

/-! ### Reads -/

/-- A read does not depend on the host's own record (log 1, log 2). -/
theorem State.hostRead_hostSide (s : State) (inputs : List HostAction) (answers : List Byte) (sp : Space) (off : Nat) :
    State.hostRead { s with inputs := inputs, answers := answers } sp off = s.hostRead sp off := by
  cases sp <;> rfl

/-- A read step puts the byte it reads at the end of the host's record. -/
theorem step_read {s : State} {sp : Space} {off : Nat} {rest : List HostAction} (h : s.inputs = .read sp off :: rest) :
    step s = .next { s with inputs := rest, answers := s.answers ++ [s.hostRead sp off] } := by
  rw [step_cons h, ← s.hostRead_hostSide rest s.answers]
  rfl

/-- Settles O6: the second read finds the state as the first did, but for the host's record. -/
theorem hostReadsAreIdempotent : Obligations.HostReadsAreIdempotent := by
  refine ⟨fun s sp off rest h => step_read h, fun s sp off rest h => ?_⟩
  have same := s.hostRead_hostSide (.read sp off :: rest) (s.answers ++ [s.hostRead sp off]) sp off
  refine ⟨_, step_read h, same, ?_⟩
  rw [step_read rfl, same]
  simp

/-! ### Writes -/

/-- Every location of the four spaces reads in `t` as in `s`, but for one that reads as `v` (20_memory.md R67). -/
def State.readsWith (s : State) (sp : Space) (off : Nat) (v : Byte) (t : State) : Prop :=
  ∀ sp' off', t.hostRead sp' off' = if sp' = sp ∧ off' = off then v else s.hostRead sp' off'

/-- A change of one byte of the CSR row is seen at its offset only. -/
theorem State.readsWith_csr {s t : State} {off : Nat} {v : Byte} (hoff : off < 48)
    (hcsr : t.csrBytes = s.csrBytes.set off v) (hev : t.hostRead .ev = s.hostRead .ev)
    (hfb : t.hostRead .fb = s.hostRead .fb) (hpb : t.hostRead .pb = s.hostRead .pb) : s.readsWith .csr off v t := by
  intro sp' off'
  cases sp' with
  | csr =>
    rw [State.hostRead_csr, State.hostRead_csr, hcsr]
    by_cases h : off' = off
    · subst h
      simp [hoff]
    · simp [h, List.getElem?_set_ne (Ne.symm h)]
  | ev => simp [hev]
  | fb => simp [hfb]
  | pb => simp [hpb]

/-- A byte put at an offset of a slice sets its entry of the slice. -/
theorem State.bytes_putByte (s : State) (b : Buffer) (a i n : Nat) (v : Byte) :
    (s.put b (a + i) [v]).bytes b a n = (s.bytes b a n).set i v := by
  apply List.ext_getElem (by simp)
  intro j hj _
  simp only [State.bytes, List.getElem_map, List.getElem_range, List.getElem_set, State.byteAt_put,
    List.length_singleton, true_and]
  by_cases h : i = j
  · subst h
    simp
  · rw [if_neg (by omega), if_neg h]

/-- A key byte put in KEY is one byte of the CSR row (20_memory.md R61). -/
theorem State.csrBytes_putKey (s : State) (i : Nat) (v : Byte) :
    (s.put .key i [v]).csrBytes = s.csrBytes.set (0x10 + i) v := by
  have hkey := s.bytes_putByte .key 0 i 32 v
  rw [Nat.zero_add] at hkey
  unfold State.csrBytes
  rw [hkey, List.set_append_right _ _ (Nat.le_add_right 16 i)]
  simp

/-- An event byte put in EV is seen at its offset only. -/
theorem State.readsWith_putEvent {s : State} {off : Nat} (h : off < evSize s.cfg) (v : Byte) :
    s.readsWith .ev off v (s.put .ev off [v]) := by
  intro sp' off'
  cases sp' with
  | ev =>
    by_cases heq : off' = off
    · subst heq
      simp [State.hostRead, State.byteAt_put, h]
    · have hbeside : ¬ (off ≤ off' ∧ off' ≤ off) := by omega
      simp [State.hostRead, State.byteAt_put, heq, hbeside]
  | csr => rfl
  | fb => rfl
  | pb => rfl

/-- A host write stores its byte at a read/write location and is ignored at any other (20_memory.md R67, R68). -/
theorem State.hostWrite_stores_or_ignored (s : State) (sp : Space) (off : Nat) (v : Byte) :
    (hostWritable s.cfg sp off = true ∧ s.readsWith sp off v (s.hostWrite sp off v)) ∨
    (hostWritable s.cfg sp off = false ∧ s.hostWrite sp off v = s) := by
  rcases s.hostWrite_cases sp off v with ⟨rfl, rfl, e⟩ | ⟨rfl, rfl, e⟩ | ⟨rfl, rfl, e⟩ | ⟨rfl, rfl, e⟩ |
    ⟨rfl, rfl, e⟩ | ⟨rfl, rfl, e⟩ | ⟨rfl, rfl, e⟩ | ⟨rfl, rfl, e⟩ | ⟨i, rfl, hi, rfl, e⟩ | ⟨rfl, ha, e⟩ | ignored
  iterate 4 exact .inl ⟨rfl, e ▸ State.readsWith_csr (by decide) rfl rfl rfl rfl⟩
  iterate 4 exact .inl ⟨rfl, e ▸ State.readsWith_csr (by decide)
    (by simp only [State.csrBytes, hi8_u16, lo8_u16]; rfl) rfl rfl rfl⟩
  · exact .inl ⟨by simp [hostWritable]; omega,
      e ▸ State.readsWith_csr (by omega) (s.csrBytes_putKey i v) rfl rfl rfl⟩
  · exact .inl ⟨decide_eq_true ha, e ▸ State.readsWith_putEvent ha v⟩
  · exact .inr ignored

/-- A host write moves no parameter, no list of the host's, no log and no port (20_memory.md R64, R67). -/
theorem State.hostWrite_frame (s : State) (sp : Space) (off : Nat) (v : Byte) :
    (s.hostWrite sp off v).inputs = s.inputs ∧ (s.hostWrite sp off v).cfg = s.cfg ∧
    (s.hostWrite sp off v).answers = s.answers ∧ (s.hostWrite sp off v).obs = s.obs ∧
    s.sameClock (s.hostWrite sp off v) ∧ s.sameEntropy (s.hostWrite sp off v) := by
  rcases s.hostWrite_cases sp off v with ⟨_, _, e⟩ | ⟨_, _, e⟩ | ⟨_, _, e⟩ | ⟨_, _, e⟩ | ⟨_, _, e⟩ | ⟨_, _, e⟩ |
    ⟨_, _, e⟩ | ⟨_, _, e⟩ | ⟨_, _, _, _, e⟩ | ⟨_, _, e⟩ | ⟨_, e⟩ <;> rw [e] <;>
    exact ⟨rfl, rfl, rfl, rfl, ⟨rfl, rfl⟩, ⟨rfl, rfl, rfl, rfl, rfl, rfl⟩⟩

/-- A write step other than to `CMD` is a host write. -/
theorem step_write {s : State} {sp : Space} {off : Nat} {v : Byte} {rest : List HostAction}
    (hcmd : ¬ (sp = .csr ∧ off = 0x00)) (h : s.inputs = .write sp off v :: rest) :
    step s = .next (State.hostWrite { s with inputs := rest } sp off v) :=
  (step_cons h).trans (perform_write hcmd v _)

/-- Settles O9. -/
theorem otherHostWritesAreIgnored : Obligations.OtherHostWritesAreIgnored := by
  intro s sp off v rest hcmd hro h
  rw [step_write hcmd h]
  rcases State.hostWrite_stores_or_ignored { s with inputs := rest } sp off v with ⟨hrw, _⟩ | ⟨_, e⟩
  · cases hro.symm.trans hrw
  · rw [e]

/-- Settles O8: the location stores the byte or ignores the write, and the taken action is not seen by a read. -/
theorem hostWriteSetsOneLocation : Obligations.HostWriteSetsOneLocation := by
  intro s sp off v rest hcmd h
  obtain ⟨hinputs, hframe⟩ := State.hostWrite_frame { s with inputs := rest } sp off v
  refine ⟨_, step_write hcmd h, hinputs, fun sp' off' => ?_, hframe⟩
  have same := s.hostRead_hostSide rest s.answers sp' off'
  rcases State.hostWrite_stores_or_ignored { s with inputs := rest } sp off v with ⟨hrw, hreads⟩ | ⟨hro, e⟩
  · simp [hreads sp' off', same, show hostWritable s.cfg sp off = true from hrw]
  · simp [e, same, show hostWritable s.cfg sp off = false from hro]

end Sys2Proof.Machine
end

section
/-! The statements about the encoding (30_encoding.md): the command codes and their illegal-code rule, the scheme
table, and the receiver's view of a built frame, which rests on the residue of the CRC. -/

namespace Sys2Proof

/-! ### The command codes (R90, R92, R93) -/

/-- A row of the opcode table fixes the whole byte to the code of its command (R90, R92). -/
theorem OpcodeRow.hits_iff {r : OpcodeRow} (hr : r ∈ opcodeTable) (c : Byte) :
    r.hits c = true ↔ c = encode r.instr := by
  have hrow : r.mask = BitVec.allOnes 8 ∧ r.bits = encode r.instr := by
    revert r; decide
  obtain ⟨hmask, hbits⟩ := hrow
  rw [OpcodeRow.hits, beq_iff_eq, hmask, hbits, BitVec.and_allOnes]

/-- A command is read back from its code, which hits its own row of the table and no other (R92). -/
theorem decode_encode (i : Instr) : decode (encode i) = .ok i := by
  have hlegal : Laws.LegalCode.Statement i := by
    cases i with
    | build => exact Laws.LegalCode.build
    | crcAppend => exact Laws.LegalCode.crcAppend
    | encrypt => exact Laws.LegalCode.encrypt
    | send => exact Laws.LegalCode.send
    | crcInit => exact Laws.LegalCode.crcInit
    | crcUpdate => exact Laws.LegalCode.crcUpdate
  obtain ⟨-, hrows⟩ := hlegal
  rw [decode, ← List.head?_filter, hrows]
  rfl

/-- A byte decodes to a command just when it is the command's code. -/
theorem decode_eq_ok_iff {c : Byte} {i : Instr} : decode c = .ok i ↔ c = encode i := by
  constructor
  · intro h
    unfold decode at h
    split at h
    case h_1 r hfind =>
      cases h
      have hhit : r.hits c = true := List.find?_some (p := fun r : OpcodeRow => r.hits c) hfind
      exact (OpcodeRow.hits_iff (List.mem_of_find?_eq_some hfind) c).1 hhit
    case h_2 => cases h
  · rintro rfl
    exact decode_encode i

/-- A byte that is no command's code is rejected by name (R93). -/
theorem decode_illegal {c : Byte} (h : ∀ i, c ≠ encode i) : decode c = .error (.illegalCode c) := by
  have hnone : opcodeTable.find? (fun r => r.hits c) = none :=
    List.find?_eq_none.2 fun r hr hhit => h r.instr ((OpcodeRow.hits_iff hr c).1 hhit)
  rw [decode, hnone]

/-- No command has a code of R93's list. -/
theorem ne_encode_of_illegal {c : Byte}
    (hc : c.toNat = 0x00 ∨ (0x05 ≤ c.toNat ∧ c.toNat ≤ 0x0F) ∨ 0x12 ≤ c.toNat) (i : Instr) : c ≠ encode i := by
  rintro rfl
  revert hc
  cases i <;> decide

/-- Settles O1: the six words are the codes that `encode` gives. -/
theorem commandWordsDecode : Obligations.CommandWordsDecode :=
  ⟨decode_encode .build, decode_encode .crcAppend, decode_encode .encrypt, decode_encode .send,
    decode_encode .crcInit, decode_encode .crcUpdate⟩

/-- Settles O2. -/
theorem decodeInvertsEncode : Obligations.DecodeInvertsEncode :=
  fun _ _ _ => decode_eq_ok_iff

end Sys2Proof

namespace Sys2Proof.Machine

/-- Settles O3. -/
theorem illegalCodeOnlySetsStatus : Obligations.IllegalCodeOnlySetsStatus := by
  intro s c rest hc hin
  rw [step_cons hin, perform_cmd, runCommand_illegal (decode_illegal (ne_encode_of_illegal hc))]

/-! ### The schemes (R111) -/

/-- `ENC_KIND` names a scheme just when it is the scheme's identifier. -/
theorem schemeOfKind_eq_some_iff {kind : Byte} {k : Scheme} : schemeOfKind kind = some k ↔ kind = schemeId k := by
  constructor
  · intro h
    rcases schemeOfKind_cases kind with hbig | ⟨-, hnone⟩ | ⟨k', hk', hid⟩
    · exact absurd (schemeOfKind_bound h) (by omega)
    · cases hnone.symm.trans h
    · cases hk'.symm.trans h
      exact hid.symm
  · rintro rfl
    cases k <;> rfl

/-- Settles O30. -/
theorem schemeTable : Obligations.SchemeTable := by
  refine ⟨fun kind k => ?_, rfl, rfl, rfl, fun kind k h => (schemeOfKind_eq_some_iff.1 h).symm⟩
  rw [schemeOfKind_eq_some_iff]
  cases k <;> simp [schemeId]

/-! ### The receiver's view (R104, 41_checksum_engine.md R165)

Feeding the register its own high byte cancels that byte, and the low byte then passes through the eight shifts without
ever meeting the polynomial; feeding it next cancels it too. -/

/-- While every bit shifted out is 0, the polynomial is not taken in (41_checksum_engine.md R162). -/
theorem crcShifts_eq_shiftLeft {n : Nat} {c : Half} (h : c.toNat * 2 ^ n < 2 ^ 16) : crcShifts n c = c <<< n := by
  induction n generalizing c with
  | zero => simp [crcShifts]
  | succ n ih =>
    rw [Nat.pow_succ', ← Nat.mul_assoc] at h
    have hsmall : c.toNat * 2 < 2 ^ 16 := Nat.lt_of_le_of_lt (Nat.le_mul_of_pos_right _ (Nat.two_pow_pos n)) h
    have hmsb : c.getLsbD 15 = false := Nat.testBit_lt_two_pow (by omega)
    have hdouble : (c <<< 1).toNat = c.toNat * 2 := by
      rw [BitVec.toNat_shiftLeft, Nat.shiftLeft_eq]
      exact Nat.mod_eq_of_lt hsmall
    rw [crcShifts, crcShift, hmsb, if_neg Bool.false_ne_true, ih (hdouble ▸ h), Nat.add_comm n,
      BitVec.shiftLeft_add]

/-- Feeding the register its high byte leaves its low byte, moved up. -/
theorem crcByte_hi8 (c : Half) : crcByte c (hi8 c) = (lo8 c).setWidth 16 <<< 8 := by
  have hcancel : c ^^^ ((hi8 c).setWidth 16 <<< 8) = (lo8 c).setWidth 16 := by
    refine BitVec.eq_of_getLsbD_eq fun i hi => ?_
    simp only [hi8, lo8, BitVec.getLsbD_xor, BitVec.getLsbD_shiftLeft, BitVec.getLsbD_setWidth,
      BitVec.getLsbD_extractLsb', hi, decide_true, Bool.true_and]
    by_cases hlow : i < 8
    · simp [hlow]
    · have hback : 8 + (i - 8) = i := by omega
      simp [hlow, hback, show i - 8 < 16 by omega, show i - 8 < 8 by omega]
  rw [crcByte, hcancel, crcShifts_eq_shiftLeft]
  rw [BitVec.toNat_setWidth_of_le (by decide)]
  have := (lo8 c).isLt
  omega

/-- Feeding the register the one byte it holds at its top leaves zero. -/
theorem crcByte_setWidth_shiftLeft (b : Byte) : crcByte (b.setWidth 16 <<< 8) b = 0 := by
  rw [crcByte, BitVec.xor_self]
  rfl

/-- Feeding the register its own two bytes, high byte first, leaves zero. -/
theorem foldl_crcByte_be16 (c : Half) : (be16 c).foldl crcByte c = 0 := by
  rw [be16, List.foldl_cons, List.foldl_cons, List.foldl_nil, crcByte_hi8, crcByte_setWidth_shiftLeft]

/-- A CRC appended to what it covers drives the CRC to zero (41_checksum_engine.md R165). -/
theorem crc16_append_crc (m : List Byte) : crc16 (m ++ be16 (crc16 m)) = 0 := by
  rw [crc16_append, foldl_crcByte_be16]

/-- After its packet-type byte the Frame is what the CRC covers, and the CRC (R103). -/
theorem State.drop_wireFrame (s : State) : s.wireFrame.drop 1 = s.frameImage.drop 1 ++ be16 s.frameCrc := rfl

/-- Settles O29. -/
theorem builtFrameHasZeroResidue : Obligations.BuiltFrameHasZeroResidue := by
  intro s hc hb
  refine ⟨_, congrArg Host.Outcome.next (State.performBuild_of_buildable hb), ?_⟩
  rw [State.built_frame hc hb, State.drop_wireFrame]
  exact crc16_append_crc _

end Sys2Proof.Machine
end

section
/-! The statements about BUILD (40_frame_builder.md R130 to R146) and the CRC_APPEND that repeats its CRC step. Outside
the date/time block a built frame is the event register file, byte for byte; so its fields, and what it depends on, are
read off three slices of FB. -/

namespace Sys2Proof.Machine

/-- BUILD of an extended event that fits is a BUILD that passes its tests (R131, R132). -/
theorem exec_build_of_buildable {s : State} (hb : s.buildable) : exec .build s = .next s.beginCommand.buildFrame :=
  congrArg Host.Outcome.next (State.performBuild_of_buildable hb)

/-! ### The two refusals -/

/-- Settles O26: each refusal is an error entry before any other effect. -/
theorem buildRefusalsInOrder : Obligations.BuildRefusalsInOrder := by
  constructor
  · intro s hkind
    rcases s.performBuild_cases with ⟨-, e⟩ | ⟨hext, -⟩ | ⟨hext, -⟩
    · exact ⟨_, congrArg Host.Outcome.next (e.trans (s.fail_eq _ _))⟩
    · exact absurd hext hkind
    · exact absurd hext hkind
  · intro s hkind hsize
    rcases s.performBuild_cases with ⟨hother, -⟩ | ⟨-, -, e⟩ | ⟨-, hfits, -⟩
    · exact absurd hkind hother
    · exact ⟨_, congrArg Host.Outcome.next (e.trans (s.fail_eq _ _))⟩
    · exact absurd hfits (Nat.not_le.2 hsize)

/-! ### The whole frame, and what stays -/

/-- Settles O22. -/
theorem buildMakesTheWireFrame : Obligations.BuildMakesTheWireFrame := by
  intro s hc hb
  refine ⟨_, exec_build_of_buildable hb, s.built_status, State.built_frame hc hb, ?_, s.built_crc, ?_⟩
  · rw [s.built_frameLen, (State.frameLen_bound hc hb).2]
  · rw [s.built_obs, List.append_assoc]
    rfl

/-- Settles O24: of all buffers BUILD writes FB alone, and there its frame alone. -/
theorem buildTouchesOnlyItsOutputs : Obligations.BuildTouchesOnlyItsOutputs := by
  intro s _ hb
  refine ⟨_, exec_build_of_buildable hb, ⟨?_, ?_, ?_, ?_⟩, ?_, s.built_pktLen, ?_⟩
  · exact State.byteAt_congr (b := .key) s.built_key s.built_resets
  · exact State.byteAt_congr (b := .ev) s.built_ev s.built_resets
  · exact fun a ha => s.built_beyond a (by omega)
  · exact fun a _ => State.byteAt_congr (b := .pb) s.built_pb s.built_resets a
  · rw [← State.performBuild_of_buildable hb]
    exact s.sameInputs_performBuild
  · exact ⟨s.built_entropyPort, s.built_entropyReads, s.built_ivHistory, s.built_pt, s.built_iv, s.built_chain⟩

/-! ### The frame as event bytes -/

/-- Equal slices have equal bytes. -/
theorem State.byteAt_of_bytes_eq {s t : State} {b c : Buffer} {a a' n : Nat} (h : s.bytes b a n = t.bytes c a' n)
    {i : Nat} (hi : i < n) : s.byteAt b (a + i) = t.byteAt c (a' + i) := by
  rw [← s.getD_bytes b a n i 0 hi, h, t.getD_bytes c a' n i 0 hi]

/-- The supplied date/time, laid out, is the six registers as they stand in EV (R135). -/
theorem State.timeBytes_suppliedTime (s : State) : timeBytes s.suppliedTime = s.bytes .ev 7 7 := by
  simp only [timeBytes, State.suppliedTime, be16_u16]
  rfl

/-- Up to its CRC the Frame is the event's bytes in their order, but for the date/time block (30_encoding.md R100). -/
theorem State.frameImage_eq_event (s : State) : s.frameImage =
    s.bytes .ev 0 7 ++ (timeBytes s.eventTime ++ s.bytes .ev 14 (22 + s.size.toNat)) := by
  have hbefore : [s.pktType] ++ be16 s.head ++ be32 s.timestamp = s.bytes .ev 0 7 := by
    simp only [State.pktType, State.head, State.timestamp, be16_u16, be32_u32]
    rfl
  have hclass : be16 s.vscpClass ++ be16 s.vscpType = s.bytes .ev 14 4 := by
    simp only [State.vscpClass, State.vscpType, be16_u16]
    rfl
  have hsize : be16 s.size = s.bytes .ev 34 2 := be16_u16 _ _
  have hafter : s.bytes .ev 14 (4 + (16 + (2 + s.size.toNat))) =
      be16 s.vscpClass ++ be16 s.vscpType ++ (s.guid ++ (be16 s.size ++ s.payload)) := by
    rw [State.bytes_add, State.bytes_add, State.bytes_add, hclass, hsize]
    rfl
  rw [show 22 + s.size.toNat = 4 + (16 + (2 + s.size.toNat)) by omega, hafter, ← hbefore]
  simp only [State.frameImage, List.append_assoc]

/-- After BUILD the bytes before the date/time block, the block, and the bytes from there to the CRC (R134 to R139). -/
theorem State.built_slices (s : State) :
    s.beginCommand.buildFrame.bytes .fb 0 7 = s.bytes .ev 0 7 ∧
    s.beginCommand.buildFrame.bytes .fb 7 7 = timeBytes s.eventTime ∧
    s.beginCommand.buildFrame.bytes .fb 14 (22 + s.size.toNat) = s.bytes .ev 14 (22 + s.size.toNat) := by
  have himage := s.built_image
  rw [show 36 + s.size.toNat = 7 + (7 + (22 + s.size.toNat)) by omega, State.bytes_add, State.bytes_add,
    State.frameImage_eq_event] at himage
  obtain ⟨hbefore, hrest⟩ := List.append_inj himage (by simp)
  obtain ⟨htime, hafter⟩ := List.append_inj hrest (by simp)
  exact ⟨hbefore, htime, hafter⟩

/-- Outside the date/time block each byte of a built frame, up to its CRC, is the event's byte. -/
theorem State.built_byteAt {s : State} {x : Nat} (hx : x < 7 ∨ 14 ≤ x ∧ x < 36 + s.size.toNat) :
    s.beginCommand.buildFrame.byteAt .fb x = s.byteAt .ev x := by
  obtain ⟨hbefore, -, hafter⟩ := s.built_slices
  rcases hx with hlow | ⟨hhigh, hend⟩
  · have := State.byteAt_of_bytes_eq hbefore hlow
    rwa [Nat.zero_add] at this
  · obtain ⟨i, rfl⟩ := Nat.exists_eq_add_of_le hhigh
    exact State.byteAt_of_bytes_eq hafter (by omega)

/-- The same of a slice that keeps clear of the date/time block. -/
theorem State.built_slice {s : State} {a n : Nat} (h : a + n ≤ 7 ∨ 14 ≤ a ∧ a + n ≤ 36 + s.size.toNat) :
    s.beginCommand.buildFrame.bytes .fb a n = s.bytes .ev a n :=
  State.bytes_ext fun i hi => State.built_byteAt (by omega)

/-- What BUILD's CRC covers: the frame image after the packet-type byte (30_encoding.md R103). -/
theorem State.built_covered (s : State) :
    s.beginCommand.buildFrame.bytes .fb 1 (35 + s.size.toNat) = s.frameImage.drop 1 := by
  rw [State.bytes_slice s.built_image 1 (35 + s.size.toNat) (by omega)]
  exact List.take_of_length_le (by simp)

/-- The CRC field of a built frame (R140). -/
theorem State.built_crcField (s : State) :
    s.beginCommand.buildFrame.bytes .fb (36 + s.size.toNat) 2 = be16 s.frameCrc := by
  have hframe := s.built_bytes
  rw [show 38 + s.size.toNat = 36 + s.size.toNat + 2 by omega, State.bytes_add, State.built_image,
    Nat.zero_add] at hframe
  exact List.append_cancel_left hframe

/-- A byte of the date/time block of a built frame (R135, R136). -/
theorem State.built_timeByte (s : State) {i : Nat} (hi : i < 7) :
    s.beginCommand.buildFrame.byteAt .fb (7 + i) = (timeBytes s.eventTime).getD i 0 := by
  obtain ⟨-, htime, -⟩ := s.built_slices
  rw [← htime, State.getD_bytes _ _ _ _ _ _ hi]

/-- Settles O23: outside the date/time block a field of the frame is the same slice of the event. -/
theorem builtFrameFieldOffsets : Obligations.BuiltFrameFieldOffsets := by
  intro s _ hb
  obtain ⟨-, htime, -⟩ := s.built_slices
  have hyear : s.beginCommand.buildFrame.bytes .fb 7 2 = be16 s.eventTime.year := by
    rw [State.bytes_add _ _ 7 2 5] at htime
    exact List.append_inj_left htime rfl
  refine ⟨_, exec_build_of_buildable hb, State.built_byteAt (by omega), ?_, ?_, hyear,
    s.built_timeByte (i := 2) (by omega), s.built_timeByte (i := 3) (by omega), s.built_timeByte (i := 4) (by omega),
    s.built_timeByte (i := 5) (by omega), s.built_timeByte (i := 6) (by omega), ?_, ?_,
    fun i _ => State.built_byteAt (by omega), ?_, fun i _ => State.built_byteAt (by omega), ?_⟩
  · exact (State.built_slice (by omega)).trans (be16_u16 _ _).symm
  · exact (State.built_slice (by omega)).trans (be32_u32 _ _ _ _).symm
  · exact (State.built_slice (by omega)).trans (be16_u16 _ _).symm
  · exact (State.built_slice (by omega)).trans (be16_u16 _ _).symm
  · exact (State.built_slice (by omega)).trans (be16_u16 _ _).symm
  · rw [s.built_crcField, s.built_covered]
    rfl

/-! ### The date/time block -/

/-- A four-digit year has a byte that is not zero (10_state.md R47). -/
theorem ClockReading.fourDigitYear_ne_zero {r : ClockReading} (h : r.fourDigitYear = true) :
    hi8 r.year ≠ 0 ∨ lo8 r.year ≠ 0 := by
  by_contra! hzero
  obtain ⟨hhi, hlo⟩ := hzero
  have hyear : r.year = 0 := by
    rw [← u16_hi8_lo8 r.year, hhi, hlo]
    rfl
  simp [ClockReading.fourDigitYear, hyear] at h

/-- Settles O25: the sentinel decides whose six numbers the block carries and whether the clock is read. -/
theorem buildDateTimeBlock : Obligations.BuildDateTimeBlock := by
  intro s _ hb
  obtain ⟨-, htime, -⟩ := s.built_slices
  refine ⟨_, exec_build_of_buildable hb, ?supplied, ?sentinel⟩
  case supplied =>
    rintro ⟨x, hx, hx', hne⟩
    have hs : ¬ s.sentinel = true := fun h => hne (s.sentinel_iff.1 h x hx hx')
    refine ⟨?_, s.built_clockPort.trans (if_neg hs), s.built_clockReads.trans (if_neg hs)⟩
    rw [htime, State.eventTime, if_neg hs, State.timeBytes_suppliedTime]
  case sentinel =>
    intro hzero
    have hs : s.sentinel = true := s.sentinel_iff.2 hzero
    have hclock : s.eventTime = s.utcNow := if_pos hs
    refine ⟨?_, s.built_clockReads.trans (if_pos hs), s.built_clockPort.trans (if_pos hs), s.built_ev,
      fun hfour => ?_⟩
    · rw [htime, hclock]
      rfl
    · rcases ClockReading.fourDigitYear_ne_zero hfour with hhi | hlo
      · exact ⟨7, by omega, by omega, by rw [s.built_timeByte (i := 0) (by omega), hclock]; exact hhi⟩
      · exact ⟨8, by omega, by omega, by rw [s.built_timeByte (i := 1) (by omega), hclock]; exact hlo⟩

/-! ### What the frame depends on -/

section
variable {s s' : State} (hev : s.sameEvent s' 1 (36 + s.size.toNat))
include hev

theorem State.size_congr : s.size = s'.size := by
  rw [State.size, State.size, hev 34 (by omega) (by omega), hev 35 (by omega) (by omega)]

/-- Equal date/time registers, and under the sentinel equal clock answers, give one date/time block (R135, R136). -/
theorem State.timeBytes_congr
    (hclock : (∀ x, 7 ≤ x → x < 14 → s.byteAt .ev x = 0x00) → s.utcNow = s'.utcNow) :
    timeBytes s.eventTime = timeBytes s'.eventTime := by
  have hsame : s.sentinel = s'.sentinel := by
    rw [Bool.eq_iff_iff, State.sentinel_iff, State.sentinel_iff]
    refine forall_congr' fun x => forall₂_congr fun hx hx' => ?_
    rw [hev x (by omega) (by omega)]
  by_cases hs : s.sentinel = true
  · rw [State.eventTime, State.eventTime, if_pos hs, if_pos (hsame ▸ hs), hclock (s.sentinel_iff.1 hs)]
  · rw [State.eventTime, State.eventTime, if_neg hs, if_neg (hsame ▸ hs), State.timeBytes_suppliedTime,
      State.timeBytes_suppliedTime]
    exact State.bytes_ext fun i hi => hev _ (by omega) (by omega)

/-- What the CRC covers does not depend on the packet-type byte, nor on anything but the event and, under the sentinel,
the clock (30_encoding.md R103; R142). -/
theorem State.covered_congr
    (hclock : (∀ x, 7 ≤ x → x < 14 → s.byteAt .ev x = 0x00) → s.utcNow = s'.utcNow) :
    s.frameImage.drop 1 = s'.frameImage.drop 1 := by
  have hcut : ∀ u : State, u.frameImage.drop 1 =
      u.bytes .ev 1 6 ++ (timeBytes u.eventTime ++ u.bytes .ev 14 (22 + u.size.toNat)) := by
    intro u
    rw [State.frameImage_eq_event, State.bytes_add u .ev 0 1 6]
    rfl
  rw [hcut, hcut, State.timeBytes_congr hev hclock, ← State.size_congr hev,
    State.bytes_ext fun i hi => hev (1 + i) (by omega) (by omega),
    State.bytes_ext fun i hi => hev (14 + i) (by omega) (by omega)]

end

/-- The Frame is the packet-type byte, what the CRC covers, and the CRC of that (30_encoding.md R100, R103). -/
theorem State.wireFrame_eq_cons (s : State) :
    s.wireFrame = s.byteAt .ev 0 :: (s.frameImage.drop 1 ++ be16 (crc16 (s.frameImage.drop 1))) := rfl

/-- Settles O28. -/
theorem packetTypeIsOutsideTheCrc : Obligations.PacketTypeIsOutsideTheCrc := by
  intro s s' t t' hc hc' hb hb' hev hclock ht ht'
  cases (exec_build_of_buildable hb).symm.trans ht
  cases (exec_build_of_buildable hb').symm.trans ht'
  have hcovered := State.covered_congr hev hclock
  have hcrc : s.frameCrc = s'.frameCrc := congrArg crc16 hcovered
  refine ⟨by rw [s.built_crc, s'.built_crc, hcrc], ?_⟩
  rw [State.built_frame hc hb, State.built_frame hc' hb', State.drop_wireFrame, State.drop_wireFrame, hcovered, hcrc]

/-- Settles O27: what O28 says, and the packet-type byte with it. -/
theorem buildDependsOnTheEventAlone : Obligations.BuildDependsOnTheEventAlone := by
  intro s s' t t' hc hc' hb hb' hev hclock ht ht'
  have hev₁ : s.sameEvent s' 1 (36 + s.size.toNat) := fun x _ hx => hev x (Nat.zero_le x) hx
  obtain ⟨hcrc, -⟩ := packetTypeIsOutsideTheCrc s s' t t' hc hc' hb hb' hev₁ hclock ht ht'
  cases (exec_build_of_buildable hb).symm.trans ht
  cases (exec_build_of_buildable hb').symm.trans ht'
  refine ⟨?_, by rw [s.built_frameLen, s'.built_frameLen, State.size_congr hev₁], hcrc⟩
  rw [State.built_frame hc hb, State.built_frame hc' hb', State.wireFrame_eq_cons, State.wireFrame_eq_cons,
    State.covered_congr hev₁ hclock, hev 0 (by omega) (by omega)]

/-! ### CRC_APPEND over a built frame -/

/-- Storing in a buffer the slice that stands there changes no byte of it. -/
theorem State.bytes_restored {s t : State} {b : Buffer} {a n : Nat}
    (h : t.buffer b = (s.buffer b).storeAll a (s.bytes b a n)) (hr : t.resets = s.resets) (x k : Nat) :
    t.bytes b x k = s.bytes b x k := by
  refine State.bytes_ext fun i _ => ?_
  by_cases hin : a ≤ x + i ∧ x + i < a + n
  · obtain ⟨hlo, hhi⟩ := hin
    rw [State.byteAt_stored h hlo (by simpa using hhi), State.getD_bytes _ _ _ _ _ _ (by omega),
      Nat.add_sub_of_le hlo]
  · exact State.byteAt_beside h hr (by simpa using hin)

/-- CRC_APPEND over a range whose CRC stands in the register and, as the frame's end, in FB changes none of them
(41_checksum_engine.md R174). -/
theorem exec_crcAppend_of_standing {s : State} {a e : Half} (hae : a.toNat ≤ e.toNat)
    (hlen : s.frameLen.toNat = e.toNat + 2) (hcap : s.frameLen.toNat ≤ fbCap s.cfg)
    (hcrc : crc16 (s.bytes .fb a.toNat (e.toNat - a.toNat)) = s.crc) (hfield : s.bytes .fb e.toNat 2 = be16 s.crc) :
    ∃ u, exec .crcAppend { s with crcStart := a, crcEnd := e } = .next u ∧
      u.status = 0x00 ∧ u.frame = s.frame ∧ u.crc = s.crc ∧ u.frameLen = s.frameLen := by
  rcases execCrcAppend_cases { s with crcStart := a, crcEnd := e } with ⟨-, heq⟩ | ⟨hbad, -⟩
  · have hlen' : BitVec.ofNat 16 (e.toNat + 2) = s.frameLen := by
      rw [← hlen, BitVec.ofNat_toNat, BitVec.setWidth_eq]
    refine ⟨_, heq, rfl, ?_, hcrc, hlen'⟩
    unfold State.frame
    simp only [hlen']
    refine State.bytes_restored (s := s) (a := e.toNat) (n := 2) ?crcField ?resets _ _
    case crcField => rw [hfield, ← hcrc]; rfl
    case resets => rfl
  · have hok : State.crcRangeOk { s with crcStart := a, crcEnd := e } = true :=
      (State.crcRangeOk_iff _).2 ⟨hae, show e.toNat ≤ s.frameLen.toNat by omega, hlen ▸ hcap⟩
    cases hok.symm.trans hbad

/-- Settles O21: the range is what BUILD's CRC covers, and the CRC field that follows it stands already (R140). -/
theorem crcAppendAgreesWithBuild : Obligations.CrcAppendAgreesWithBuild := by
  intro s t hc hb ht
  cases (exec_build_of_buildable hb).symm.trans ht
  obtain ⟨hcap, hlen⟩ := State.frameLen_bound hc hb
  have hstart : (1 : Half).toNat = 1 := rfl
  have hend : (BitVec.ofNat 16 (36 + s.size.toNat)).toNat = 36 + s.size.toNat := by
    rw [BitVec.toNat_ofNat] at hlen ⊢
    omega
  apply exec_crcAppend_of_standing
  case hae => omega
  case hlen => rw [s.built_frameLen, hlen, hend]; omega
  case hcap => rwa [s.built_frameLen, hlen, s.built_cfg]
  case hcrc =>
    rw [hend, hstart, show 36 + s.size.toNat - 1 = 35 + s.size.toNat by omega, s.built_covered, s.built_crc]
    rfl
  case hfield => rw [hend, s.built_crc, s.built_crcField]

end Sys2Proof.Machine
end

section
/-! The statements about the CRC and its three commands (41_checksum_engine.md). The turn of R162's loop commutes with
exclusive or and loses nothing: the other forms of the byte step follow from the first, the detection of a changed byte
from the second. -/

namespace Sys2Proof.Machine

/-! ### One turn of the loop (R161, R162) -/

/-- The bits move up by one, and the bit moved out, crossed with the one fed, decides whether the taps are taken in. -/
theorem getLsbD_crcBit (c : Half) (d : Bool) (i : Nat) :
    (crcBit c d).getLsbD i = ((c <<< 1).getLsbD i ^^ ((c.getLsbD 15 ^^ d) && crcPoly.getLsbD i)) := by
  unfold crcBit
  split
  case isTrue hout => rw [BitVec.getLsbD_xor, hout, Bool.true_and]
  case isFalse hout => rw [Bool.eq_false_of_not_eq_true hout, Bool.false_and, Bool.xor_false]

/-- A turn of the byte form is a bit step that feeds 0. -/
theorem crcShift_eq_crcBit (c : Half) : crcShift c = crcBit c false := by
  rw [crcShift, crcBit, Bool.xor_false]

theorem getLsbD_crcShift (c : Half) (i : Nat) :
    (crcShift c).getLsbD i = ((c <<< 1).getLsbD i ^^ (c.getLsbD 15 && crcPoly.getLsbD i)) := by
  rw [crcShift_eq_crcBit, getLsbD_crcBit, Bool.xor_false]

/-- The turn is additive over exclusive or. -/
theorem crcShift_xor (a b : Half) : crcShift (a ^^^ b) = crcShift a ^^^ crcShift b := by
  refine BitVec.eq_of_getLsbD_eq fun i _ => ?_
  simp only [getLsbD_crcShift, BitVec.shiftLeft_xor_distrib, BitVec.getLsbD_xor, Bool.and_xor_distrib_right,
    Bool.xor_assoc, Bool.xor_left_comm]

/-- The turn loses nothing: bit 0 of its answer is the bit moved out, and that tells every other bit. -/
theorem crcShift_injective : Function.Injective crcShift := by
  intro a b h
  have hbit (i : Nat) := congrArg (BitVec.getLsbD · i) h
  simp only [getLsbD_crcShift] at hbit
  have hout : a.getLsbD 15 = b.getLsbD 15 := by simpa [crcPoly] using hbit 0
  refine BitVec.eq_of_getLsbD_eq fun i hi => ?_
  by_cases htop : i = 15
  · rw [htop, hout]
  · have hnext := hbit (i + 1)
    rw [hout, Bool.xor_left_inj] at hnext
    simpa [show i + 1 < 16 by omega, hi] using hnext

/-! ### Several turns, and the byte taken in (R162) -/

theorem crcShifts_xor (n : Nat) (a b : Half) : crcShifts n (a ^^^ b) = crcShifts n a ^^^ crcShifts n b := by
  induction n generalizing a b with
  | zero => rfl
  | succ n ih => rw [crcShifts, crcShift_xor, ih]; rfl

theorem crcShifts_injective (n : Nat) : Function.Injective (crcShifts n) := by
  induction n with
  | zero => exact Function.injective_id
  | succ n ih => exact ih.comp crcShift_injective

/-- The last of several turns. -/
theorem crcShifts_succ (n : Nat) (c : Half) : crcShifts (n + 1) c = crcShift (crcShifts n c) := by
  induction n generalizing c with
  | zero => rfl
  | succ n ih => exact ih (crcShift c)

/-- A byte at the top of the register, where R162 takes it in. -/
def highByte (b : Byte) : Half := b.setWidth 16 <<< 8

theorem crcByte_eq (c : Half) (b : Byte) : crcByte c b = crcShifts 8 (c ^^^ highByte b) := rfl

theorem highByte_xor (a b : Byte) : highByte (a ^^^ b) = highByte a ^^^ highByte b := by
  rw [highByte, BitVec.setWidth_xor, BitVec.shiftLeft_xor_distrib]
  rfl

theorem toNat_highByte (b : Byte) : (highByte b).toNat = b.toNat * 256 := by
  have := b.isLt
  simp only [highByte, BitVec.toNat_shiftLeft, BitVec.toNat_setWidth, Nat.shiftLeft_eq]
  omega

theorem highByte_injective : Function.Injective highByte := by
  intro a b h
  have := congrArg BitVec.toNat h
  rw [toNat_highByte, toNat_highByte] at this
  exact BitVec.eq_of_toNat_eq (by omega)

theorem highByte_shiftLeft_one (b : Byte) : highByte b <<< 1 = highByte (b <<< 1) := by
  apply BitVec.eq_of_toNat_eq
  simp only [BitVec.toNat_shiftLeft, toNat_highByte, Nat.shiftLeft_eq]
  omega

/-- The low byte moved to the top is the register moved up by a byte. -/
theorem highByte_lo8 (c : Half) : highByte (lo8 c) = c <<< 8 := by
  apply BitVec.eq_of_toNat_eq
  simp only [toNat_highByte, lo8, BitVec.extractLsb'_toNat, BitVec.toNat_shiftLeft, Nat.shiftLeft_eq]
  omega

/-! ### The bit-serial form (R161) -/

/-- A turn of the byte form feeds the top bit of the byte and moves the rest of the byte up. -/
theorem crcShift_xor_highByte (c : Half) (b : Byte) :
    crcShift (c ^^^ highByte b) = crcBit c (b.getLsbD 7) ^^^ highByte (b <<< 1) := by
  refine BitVec.eq_of_getLsbD_eq fun i _ => ?_
  have htop : (highByte b).getLsbD 15 = b.getLsbD 7 := by simp [highByte]
  simp only [getLsbD_crcShift, getLsbD_crcBit, BitVec.shiftLeft_xor_distrib, highByte_shiftLeft_one,
    BitVec.getLsbD_xor, htop, Bool.xor_assoc, Bool.xor_comm]

/-- `n` turns of the byte form feed the `n` top bits of the byte. -/
theorem crcShifts_xor_highByte {n : Nat} (hn : n ≤ 8) (c : Half) (b : Byte) :
    crcShifts n (c ^^^ highByte b) =
      (List.range n).foldl (fun c i => crcBit c (b.getLsbD (7 - i))) c ^^^ highByte (b <<< n) := by
  induction n with
  | zero => simp [crcShifts]
  | succ n ih =>
    have htop : (b <<< n).getLsbD 7 = b.getLsbD (7 - n) := by
      rw [BitVec.getLsbD_shiftLeft, decide_eq_false (show ¬ 7 < n by omega)]
      rfl
    rw [crcShifts_succ, ih (by omega), crcShift_xor_highByte, htop, ← BitVec.shiftLeft_add, List.range_succ,
      List.foldl_append]
    rfl

/-- Settles O11: after eight turns nothing of the byte is left to feed. -/
theorem crcByteIsEightBitSteps : Obligations.CrcByteIsEightBitSteps := by
  intro c b
  have hgone : highByte (b <<< 8) = 0 := by
    rw [BitVec.shiftLeft_eq_zero le_rfl]
    rfl
  rw [crcByte_eq, crcShifts_xor_highByte le_rfl, hgone]
  exact BitVec.xor_zero

/-! ### The table and the sixteen equations (R163, R164) -/

/-- The byte step, too, is additive over exclusive or. -/
theorem crcByte_xor (c c' : Half) (b b' : Byte) :
    crcByte (c ^^^ c') (b ^^^ b') = crcByte c b ^^^ crcByte c' b' := by
  rw [crcByte_eq, crcByte_eq, crcByte_eq, highByte_xor, ← crcShifts_xor]
  congr 1
  ac_rfl

/-- The low byte moves up, and the high byte, crossed with the input, takes its step from 0. -/
theorem crcByte_eq_shift_xor (c : Half) (b : Byte) : crcByte c b = (c <<< 8) ^^^ crcByte 0 (hi8 c ^^^ b) := by
  calc crcByte c b = crcByte (c ^^^ 0) (hi8 c ^^^ (hi8 c ^^^ b)) := by simp
    _ = (c <<< 8) ^^^ crcByte 0 (hi8 c ^^^ b) := by rw [crcByte_xor, crcByte_hi8, ← highByte, highByte_lo8]

/-- The table holds the byte step from 0. -/
theorem crcTable_eq_crcByte (b : Byte) : crcTable b.toNat = crcByte 0 b := by
  revert b; decide +kernel

/-- Settles O13. -/
theorem crcTableForm : Obligations.CrcTableForm := by
  refine ⟨fun c b => ?_, crcTable_eq_crcByte⟩
  rw [crcByteTable, BitVec.setWidth_ushiftRight_eq_extractLsb, crcTable_eq_crcByte]
  exact crcByte_eq_shift_xor c b

theorem crcByteParallel_zero (b : Byte) : crcByteParallel 0 b = crcByte 0 b := by
  revert b; decide +kernel

/-- The sixteen equations, too, see the high byte only as crossed with the input, and the low byte as moved up. -/
theorem crcByteParallel_eq_shift_xor (c : Half) (b : Byte) :
    crcByteParallel c b = (c <<< 8) ^^^ crcByteParallel 0 (hi8 c ^^^ b) := by
  refine BitVec.eq_of_getLsbD_eq fun i hi => ?_
  simp only [crcByteParallel, hi8, BitVec.getLsbD_xor, BitVec.getLsbD_shiftLeft, BitVec.getLsbD_extractLsb',
    BitVec.getLsbD_ofBoolListBE]
  -- Bit by bit both sides are sums of the same bits of `c` and `b`, in another order.
  interval_cases i <;> simp [-BitVec.getLsbD_eq_getElem]
  all_goals simp only [Bool.xor_assoc, Bool.xor_left_comm, Bool.xor_comm]

/-- Settles O12. -/
theorem crcParallelEquations : Obligations.CrcParallelEquations := by
  intro c b
  rw [crcByteParallel_eq_shift_xor, crcByteParallel_zero]
  exact crcByte_eq_shift_xor c b

/-! ### Residue and detection (R165) -/

/-- Settles O14. -/
theorem crcResidueIsZero : Obligations.CrcResidueIsZero := crc16_append_crc

/-- From one register value, different bytes lead to different values. -/
theorem crcByte_injective_byte (c : Half) : Function.Injective (crcByte c) := by
  intro x y h
  exact highByte_injective ((BitVec.xor_right_inj c).1 (crcShifts_injective 8 h))

/-- The same byte string leads different register values to different values. -/
theorem foldl_crcByte_injective (n : List Byte) : Function.Injective (fun c => n.foldl crcByte c) := by
  induction n with
  | nil => exact Function.injective_id
  | cons b n ih =>
    have hb : Function.Injective (fun c => crcByte c b) := fun c c' h =>
      (BitVec.xor_left_inj (highByte b)).1 (crcShifts_injective 8 h)
    exact ih.comp hb

/-- Settles O15: the changed byte makes the registers differ, and the bytes after it keep them apart. -/
theorem crcDetectsAnyByteChange : Obligations.CrcDetectsAnyByteChange := by
  intro m n x y hxy h
  rw [crc16_append, crc16_append] at h
  exact hxy (crcByte_injective_byte _ (foldl_crcByte_injective n h))

/-! ### CRC_INIT, CRC_UPDATE and streaming (R166 to R168) -/

theorem exec_crcInit (s : State) : exec .crcInit s = .next { s with status := 0x00, crc := 0xFFFF } := rfl

theorem exec_crcUpdate (s : State) :
    exec .crcUpdate s = .next { s with status := 0x00, crc := crcByte s.crc s.crcDin } := rfl

/-- Settles O16. -/
theorem crcInitSetsTheInitialValue : Obligations.CrcInitSetsTheInitialValue :=
  ⟨decode_encode .crcInit, exec_crcInit⟩

/-- Settles O17. -/
theorem crcUpdateFeedsOneByte : Obligations.CrcUpdateFeedsOneByte :=
  ⟨decode_encode .crcUpdate, exec_crcUpdate⟩

/-- A `CMD` write of a command's code performs the command. -/
theorem step_command {s : State} {rest : List HostAction} (i : Instr)
    (h : s.inputs = .write .csr 0x00 (encode i) :: rest) : step s = exec i { s with inputs := rest } := by
  rw [step_cons h, perform_cmd, runCommand_ok (decode_encode i)]

/-- The host actions that stream a message: each byte to CRC_DIN, and CRC_UPDATE after it (R168). -/
def streamActions (m : List Byte) : List HostAction :=
  m.flatMap fun b => [.write .csr 0x05 b, .write .csr 0x00 0x11]

/-- A byte written to CRC_DIN and then fed: two steps. -/
theorem run_feedByte {s : State} {b : Byte} {rest : List HostAction}
    (h : s.inputs = .write .csr 0x05 b :: .write .csr 0x00 0x11 :: rest) (n : Nat) :
    Sys2Proof.core.run (n + 2) s = Sys2Proof.core.run n
      { s with status := 0x00, crc := crcByte s.crc b, crcDin := b, inputs := rest } := by
  rw [run_next (step_write (by decide) h), run_next ((step_command .crcUpdate rfl).trans (exec_crcUpdate _))]
  rfl

/-- A message streamed after a command that succeeded goes on from the CRC that stands. -/
theorem run_streamActions (m : List Byte) {s : State} {rest : List HostAction} (h0 : s.status = 0x00)
    (h : s.inputs = streamActions m ++ rest) :
    Sys2Proof.core.run (2 * m.length) s = .next
      { s with crc := m.foldl crcByte s.crc, crcDin := (s.crcDin :: m).getLast (by simp), inputs := rest } := by
  induction m generalizing s with
  | nil => cases s; subst h; rfl
  | cons b m ih =>
    rw [List.length_cons, Nat.mul_succ, run_feedByte h, ih rfl rfl]
    simp [h0]

/-- Settles O18. -/
theorem streamedCrcIsTheCrcOfTheMessage : Obligations.StreamedCrcIsTheCrcOfTheMessage := by
  intro s m rest h
  refine ⟨_, ?_, rfl⟩
  rw [Nat.add_comm, run_next ((step_command .crcInit h).trans (exec_crcInit _))]
  exact run_streamActions m rfl rfl

/-! ### CRC_APPEND (R170 to R175) -/

/-- Settles O20: each ground fails one of the range test's comparisons. -/
theorem crcAppendRefusesBadRanges : Obligations.CrcAppendRefusesBadRanges := by
  intro s hbad
  rcases execCrcAppend_cases s with ⟨hok, -⟩ | ⟨-, e⟩
  · have := s.crcRangeOk_iff.1 hok
    omega
  · exact e

/-- A length within FB fits its register (00_scope.md R9, R11; 10_state.md R41). -/
theorem toNat_ofNat_of_le_fbCap {p : Params} {n : Nat} (hc : p.wellFormed = true) (hn : n ≤ fbCap p) :
    (BitVec.ofNat 16 n).toNat = n := by
  simp only [Params.wellFormed, decide_eq_true_eq, fbCap, headerLength, BitVec.toNat_ofNat] at *
  omega

/-- A 16-bit value stored in a buffer stands there high byte first. -/
theorem State.byteAt_stored_hi8 {t : State} {b : Buffer} {m : Memory} {a : Nat} {v : Half}
    (h : t.buffer b = m.storeAll a (be16 v)) : t.byteAt b a = hi8 v := by
  rw [State.byteAt_stored h le_rfl (by simp), Nat.sub_self]
  rfl

theorem State.byteAt_stored_lo8 {t : State} {b : Buffer} {m : Memory} {a : Nat} {v : Half}
    (h : t.buffer b = m.storeAll a (be16 v)) : t.byteAt b (a + 1) = lo8 v := by
  rw [State.byteAt_stored h (by omega) (by simp), Nat.add_sub_cancel_left]
  rfl

/-- Settles O19. -/
theorem crcAppendWritesAfterTheRange : Obligations.CrcAppendWritesAfterTheRange := by
  intro s hc hse hef hcap
  rcases execCrcAppend_cases s with ⟨-, e⟩ | ⟨hbad, -⟩
  · generalize crc16 (s.bytes .fb s.crcStart.toNat (s.crcEnd.toNat - s.crcStart.toNat)) = c at e ⊢
    refine ⟨_, e, rfl, rfl, ?high, ?low, toNat_ofNat_of_le_fbCap hc hcap, rfl, ⟨?key, ?ev, ?fb, ?pb⟩,
      State.sameInputs.refl s, rfl, ⟨rfl, rfl⟩, ⟨rfl, rfl, rfl, rfl, rfl, rfl⟩⟩
    case high => exact State.byteAt_stored_hi8 (b := .fb) (by rfl)
    case low => exact State.byteAt_stored_lo8 (b := .fb) (by rfl)
    case key => exact State.byteAt_congr (b := .key) rfl rfl
    case ev => exact State.byteAt_congr (b := .ev) rfl rfl
    case fb => exact fun a ha => State.byteAt_beside (s := s) (b := .fb) (bs := be16 c) (by rfl) (by rfl) ha
    case pb => exact fun a _ => State.byteAt_congr (b := .pb) rfl rfl a
  · cases (s.crcRangeOk_iff.2 ⟨hse, hef, hcap⟩).symm.trans hbad

end Sys2Proof.Machine
end

section
/-! The block cipher loses nothing (44_block_cipher.md R236): each step of AES maps strings of sixteen bytes one to one
to such strings, so that AES under a key of its length does. -/

namespace Sys2Proof.Machine

/-! ### Exclusive or of byte strings -/

theorem xorBytes_comm (x y : List Byte) : xorBytes x y = xorBytes y x :=
  List.zipWith_comm_of_comm BitVec.xor_comm

/-- The same string taken in twice cancels. -/
theorem xorBytes_cancel {x y : List Byte} (h : x.length = y.length) : xorBytes (xorBytes x y) y = x := by
  refine List.ext_getElem (by simp [h]) fun i _ _ => ?_
  simp [xorBytes]

/-! ### Steps that permute strings of sixteen bytes -/

/-- The step maps strings of sixteen bytes to such strings, no two to the same. -/
structure PermutesBytes (f : List Byte → List Byte) : Prop where
  length {s : List Byte} : s.length = 16 → (f s).length = 16
  injective {s t : List Byte} : s.length = 16 → t.length = 16 → f s = f t → s = t

theorem PermutesBytes.id : PermutesBytes id := ⟨fun h => h, fun _ _ h => h⟩

theorem PermutesBytes.comp {f g : List Byte → List Byte} (hg : PermutesBytes g) (hf : PermutesBytes f) :
    PermutesBytes (g ∘ f) where
  length h := hg.length (hf.length h)
  injective hs ht h := hf.injective hs ht (hg.injective (hf.length hs) (hf.length ht) h)

/-- A step that gives back its argument when done four times loses nothing. -/
theorem PermutesBytes.of_four {f : List Byte → List Byte} (hlen : ∀ {s}, s.length = 16 → (f s).length = 16)
    (hfour : ∀ {s}, s.length = 16 → f (f (f (f s))) = s) : PermutesBytes f where
  length := hlen
  injective hs ht h := by rw [← hfour hs, h, hfour ht]

/-! ### The four transformations (R241 to R244) -/

/-- The rows of the inverse of `SBOX`, printed as `sboxRows` is. -/
def invSboxRows : List Nat :=
  [ 0x52_09_6a_d5_30_36_a5_38_bf_40_a3_9e_81_f3_d7_fb,
    0x7c_e3_39_82_9b_2f_ff_87_34_8e_43_44_c4_de_e9_cb,
    0x54_7b_94_32_a6_c2_23_3d_ee_4c_95_0b_42_fa_c3_4e,
    0x08_2e_a1_66_28_d9_24_b2_76_5b_a2_49_6d_8b_d1_25,
    0x72_f8_f6_64_86_68_98_16_d4_a4_5c_cc_5d_65_b6_92,
    0x6c_70_48_50_fd_ed_b9_da_5e_15_46_57_a7_8d_9d_84,
    0x90_d8_ab_00_8c_bc_d3_0a_f7_e4_58_05_b8_b3_45_06,
    0xd0_2c_1e_8f_ca_3f_0f_02_c1_af_bd_03_01_13_8a_6b,
    0x3a_91_11_41_4f_67_dc_ea_97_f2_cf_ce_f0_b4_e6_73,
    0x96_ac_74_22_e7_ad_35_85_e2_f9_37_e8_1c_75_df_6e,
    0x47_f1_1a_71_1d_29_c5_89_6f_b7_62_0e_aa_18_be_1b,
    0xfc_56_3e_4b_c6_d2_79_20_9a_db_c0_fe_78_cd_5a_f4,
    0x1f_dd_a8_33_88_07_c7_31_b1_12_10_59_27_80_ec_5f,
    0x60_51_7f_a9_19_b5_4a_0d_2d_e5_7a_9f_93_c9_9c_ef,
    0xa0_e0_3b_4d_ae_2a_f5_b0_c8_eb_bb_3c_83_53_99_61,
    0x17_2b_04_7e_ba_77_d6_26_e1_69_14_63_55_21_0c_7d ]

/-- The byte whose `SBOX` entry is `b`. -/
def invSubByte (b : Byte) : Byte :=
  BitVec.ofNat 8 ((invSboxRows.getD (b.toNat / 16) 0) >>> (8 * (15 - b.toNat % 16)))

theorem invSubByte_subByte : Function.LeftInverse invSubByte subByte := by
  unfold Function.LeftInverse; decide +kernel

theorem subBytes_permutes : PermutesBytes subBytes where
  length h := (List.length_map _).trans h
  injective _ _ h := List.map_injective_iff.2 invSubByte_subByte.injective h

/-- Row `r` turns by `r` places, so four times brings each row round. -/
theorem shiftRows_four : ∀ {s : List Byte}, s.length = 16 → shiftRows (shiftRows (shiftRows (shiftRows s))) = s
  | [_, _, _, _, _, _, _, _, _, _, _, _, _, _, _, _], _ => rfl

theorem shiftRows_permutes : PermutesBytes shiftRows :=
  .of_four (fun _ => by simp [shiftRows]) shiftRows_four

theorem xor_cancel_left (a b : Byte) : a ^^^ (a ^^^ b) = b := by
  rw [← BitVec.xor_assoc, BitVec.xor_self, BitVec.zero_xor]

theorem xor_left_comm (a b c : Byte) : a ^^^ (b ^^^ c) = b ^^^ (a ^^^ c) := by
  ac_rfl

/-- Multiplication by 0x02 is additive over exclusive or (R239). -/
theorem xtime_xor (a b : Byte) : xtime (a ^^^ b) = xtime a ^^^ xtime b := by
  have h (c : Byte) : xtime c = (c <<< 1) ^^^ if c.getLsbD 7 then 0x1B else 0 := by
    unfold xtime; split <;> simp
  rw [h, h, h, BitVec.shiftLeft_xor_distrib, BitVec.getLsbD_xor]
  cases a.getLsbD 7 <;> cases b.getLsbD 7 <;> simp [BitVec.xor_assoc, BitVec.xor_comm, xor_left_comm]

/-- A byte of a mixed column, from the byte it replaces and the three below it, the rows taken round (R243). -/
def mixByte (a b c d : Byte) : Byte := xtime (a ^^^ b) ^^^ (b ^^^ (c ^^^ d))

theorem mixColumns_cons (a0 a1 a2 a3 : Byte) (rest : List Byte) :
    mixColumns (a0 :: a1 :: a2 :: a3 :: rest) =
      mixByte a0 a1 a2 a3 :: mixByte a1 a2 a3 a0 :: mixByte a2 a3 a0 a1 :: mixByte a3 a0 a1 a2 ::
        mixColumns rest := by
  simp only [mixColumns, mixByte, mul3, xtime_xor, BitVec.xor_assoc, BitVec.xor_comm, xor_left_comm]

/-- Mixing twice takes into each byte 0x04 times its sum with the byte two rows away. -/
theorem mixByte_twice (a b c d : Byte) :
    mixByte (mixByte a b c d) (mixByte b c d a) (mixByte c d a b) (mixByte d a b c) =
      a ^^^ xtime (xtime (a ^^^ c)) := by
  simp only [mixByte, xtime_xor, BitVec.xor_assoc, BitVec.xor_comm, xor_left_comm, xor_cancel_left, BitVec.xor_self]

/-- The sums two rows apart are the same after mixing twice, so mixing twice more takes the same bytes in again. -/
theorem mixColumns_four_cons (a0 a1 a2 a3 : Byte) (rest : List Byte) :
    mixColumns (mixColumns (mixColumns (mixColumns (a0 :: a1 :: a2 :: a3 :: rest)))) =
      a0 :: a1 :: a2 :: a3 :: mixColumns (mixColumns (mixColumns (mixColumns rest))) := by
  have hagain (a c : Byte) : (a ^^^ xtime (xtime (a ^^^ c))) ^^^
      xtime (xtime ((a ^^^ xtime (xtime (a ^^^ c))) ^^^ (c ^^^ xtime (xtime (c ^^^ a))))) = a := by
    simp only [xtime_xor, BitVec.xor_assoc, BitVec.xor_comm, xor_left_comm, BitVec.xor_self, BitVec.xor_zero]
  simp only [mixColumns_cons, mixByte_twice, hagain]

theorem mixColumns_four : ∀ {s : List Byte}, s.length = 16 → mixColumns (mixColumns (mixColumns (mixColumns s))) = s
  | [_, _, _, _, _, _, _, _, _, _, _, _, _, _, _, _], _ => by
    simp only [mixColumns_four_cons]
    rfl

theorem length_mixColumns : ∀ {s : List Byte}, s.length = 16 → (mixColumns s).length = 16
  | [_, _, _, _, _, _, _, _, _, _, _, _, _, _, _, _], _ => rfl

theorem mixColumns_permutes : PermutesBytes mixColumns := .of_four length_mixColumns mixColumns_four

/-- A round key is four words of the schedule, sixteen bytes. -/
theorem length_roundKey {w : List (List Byte)} (hw : ∀ x ∈ w, x.length = 4) {round : Nat}
    (hr : 4 * (round + 1) ≤ w.length) : ((w.drop (4 * round)).take 4).flatten.length = 16 := by
  have hwords : ((w.drop (4 * round)).take 4).map List.length = List.replicate 4 4 := by
    refine List.eq_replicate_iff.2 ⟨by simp; omega, fun n hn => ?_⟩
    obtain ⟨x, hx, rfl⟩ := List.mem_map.1 hn
    exact hw x (List.mem_of_mem_drop (List.mem_of_mem_take hx))
  rw [List.length_flatten, hwords]
  rfl

theorem addRoundKey_permutes {w : List (List Byte)} (hw : ∀ x ∈ w, x.length = 4) {round : Nat}
    (hr : 4 * (round + 1) ≤ w.length) : PermutesBytes (addRoundKey w round) := by
  have hkey := length_roundKey hw hr
  have heq (s : List Byte) : addRoundKey w round s = xorBytes s ((w.drop (4 * round)).take 4).flatten := rfl
  generalize ((w.drop (4 * round)).take 4).flatten = key at hkey heq
  constructor
  · intro s hs
    rw [heq, length_xorBytes, hs, hkey]
    rfl
  · intro s t hs ht h
    rw [heq, heq] at h
    rw [← xorBytes_cancel (hs.trans hkey.symm), h, xorBytes_cancel (ht.trans hkey.symm)]

/-! ### The key schedule and the rounds (R245, R246) -/

theorem length_scheduleTemp (nk i : Nat) {t : List Byte} (h : t.length = 4) : (scheduleTemp nk i t).length = 4 := by
  unfold scheduleTemp
  split
  · simp [rotWord, h]
  · split
    · rw [List.length_map, h]
    · exact h

/-- The schedule grows word by word, each word of four bytes. -/
theorem expandWords_words (nk n : Nat) {w : List (List Byte)} (hw : ∀ x ∈ w, x.length = 4) (hnk : 0 < nk)
    (hlen : nk ≤ w.length) :
    (expandWords nk n w).length = w.length + n ∧ ∀ x ∈ expandWords nk n w, x.length = 4 := by
  induction n generalizing w with
  | zero => exact ⟨rfl, hw⟩
  | succ n ih =>
    have hword {j : Nat} (hj : j < w.length) : (w.getD j []).length = 4 := by
      rw [List.getD_eq_getElem _ _ hj]
      exact hw _ (List.getElem_mem hj)
    have hnew : ∀ x ∈ w ++ [List.zipWith (· ^^^ ·) (w.getD (w.length - nk) [])
        (scheduleTemp nk w.length (w.getD (w.length - 1) []))], x.length = 4 := by
      intro x hx
      rcases List.mem_append.1 hx with hx | hx
      · exact hw x hx
      · rw [List.mem_singleton.1 hx, List.length_zipWith, hword (by omega),
          length_scheduleTemp _ _ (hword (by omega))]
        rfl
    obtain ⟨hn, hall⟩ := ih hnew (by simp; omega)
    refine ⟨?_, hall⟩
    rw [expandWords, hn, List.length_append, List.length_singleton]
    omega

/-- A key of its length has a round key for every round, and one before them (R238, R245). -/
theorem keyExpansion_words {nk : Nat} {key : List Byte} (hnk : 0 < nk) (hkey : key.length = 4 * nk) :
    (keyExpansion nk key).length = 4 * (nk + 7) ∧ ∀ x ∈ keyExpansion nk key, x.length = 4 := by
  have hfirst : ∀ x ∈ (List.range nk).map (fun i => (key.drop (4 * i)).take 4), x.length = 4 := by
    intro x hx
    obtain ⟨i, hi, rfl⟩ := List.mem_map.1 hx
    have := List.mem_range.1 hi
    simp; omega
  obtain ⟨hlen, hall⟩ := expandWords_words nk (4 * (nk + 7) - nk) hfirst hnk (by simp)
  exact ⟨by rw [keyExpansion, hlen]; simp; omega, hall⟩

theorem aesRounds_permutes {w : List (List Byte)} (hw : ∀ x ∈ w, x.length = 4) {n round : Nat}
    (hr : 4 * (round + n) ≤ w.length) : PermutesBytes (aesRounds w n round) := by
  induction n generalizing round with
  | zero => exact .id
  | succ n ih =>
    have hround := (addRoundKey_permutes hw (round := round) (by omega)).comp
      (mixColumns_permutes.comp (shiftRows_permutes.comp subBytes_permutes))
    exact (ih (round := round + 1) (by omega)).comp hround

theorem aesEncrypt_permutes {nk : Nat} {key : List Byte} (hnk : 0 < nk) (hkey : key.length = 4 * nk) :
    PermutesBytes (aesEncrypt nk key) := by
  obtain ⟨hlen, hw⟩ := keyExpansion_words hnk hkey
  have hkeys {round : Nat} (h : round < nk + 7) : PermutesBytes (addRoundKey (keyExpansion nk key) round) :=
    addRoundKey_permutes hw (by omega)
  have hrounds : PermutesBytes (aesRounds (keyExpansion nk key) (nk + 6 - 1) 1) := aesRounds_permutes hw (by omega)
  exact (hkeys (by omega)).comp (shiftRows_permutes.comp (subBytes_permutes.comp (hrounds.comp (hkeys (by omega)))))

/-! ### Block ciphers -/

/-- AES under a key of its length gives no two blocks the same ciphertext. -/
theorem blockEnc_aes_injective (k : Scheme) {key : List Byte} (hkey : key.length = schemeKeyLength k) :
    Function.Injective (blockEnc .aes k key) := by
  have hwords : 0 < schemeKeyLength k / 4 ∧ key.length = 4 * (schemeKeyLength k / 4) := by
    rw [hkey]; cases k <;> decide
  have haes := aesEncrypt_permutes hwords.1 hwords.2
  intro x y h
  have hbytes := congrArg Vector.toList h
  simp only [blockEnc] at hbytes
  rw [Block.toList_ofBytes (haes.length x.length_toList), Block.toList_ofBytes (haes.length y.length_toList)] at hbytes
  exact Vector.toList_inj.1 (haes.injective x.length_toList y.length_toList hbytes)

/-- AES, and every cipher with `BlockEncPermutes`, is one to one under a key of its length (R236). -/
theorem blockEnc_injective {c : CipherBinding} (hc : c = .aes ∨ blockEncPermutes c) (k : Scheme) {key : List Byte}
    (hkey : key.length = schemeKeyLength k) : Function.Injective (blockEnc c k key) := by
  rcases hc with rfl | hperm
  · exact blockEnc_aes_injective k hkey
  · exact (hperm k key hkey).injective

end Sys2Proof.Machine
end

section
/-! The statements about ENCRYPT (42_encryption_wrapper.md R190 to R210). A failure and the pass-through are read off
the test that decides them; a successful encryption is read off its packet, which is the byte string `wirePacket`. -/

namespace Sys2Proof.Machine

/-! ### The endings, each by the tests that lead to it (60_exceptions.md R265) -/

section
variable {s : State}

/-- No frame (R191). -/
theorem exec_encrypt_of_noFrame (h : s.frameLen = 0) :
    exec .encrypt s = .next { s with status := 0x06, pktLen := 0x0000, epoch := s.epoch + 1 } :=
  congrArg Host.Outcome.next ((if_pos h).trans (s.fail_eq .encrypt .operand))

variable (h0 : s.frameLen ≠ 0)
include h0

/-- A scheme that is not recognised, whatever the key (R192). -/
theorem exec_encrypt_of_unrecognised (hkind : 3 < s.encKind.toNat) :
    exec .encrypt s = .next { s with status := 0x04, pktLen := 0x0000, epoch := s.epoch + 1 } :=
  congrArg Host.Outcome.next ((if_neg h0).trans ((if_pos hkind).trans (s.fail_eq .encrypt .unsupportedScheme)))

/-- None: the pass-through (R196). -/
theorem exec_encrypt_of_none (hkind : s.encKind = 0) :
    exec .encrypt s = .next
      { s with status := 0x00, pb := s.pb.storeAll 0 s.frame, pktLen := s.frameLen, epoch := s.epoch + 1 } := by
  have hpass : s.performEncrypt = s.beginCommand.passThrough := by
    refine (if_neg h0).trans ?_
    rw [State.beginCommand_encKind, hkind]
    rfl
  exact congrArg Host.Outcome.next (hpass.trans (State.passThrough_eq _))

/-- Under a scheme the key's length decides (R197). -/
theorem State.performEncrypt_of_scheme {k : Scheme} (hk : schemeOfKind s.encKind = some k) :
    s.performEncrypt = if s.keyLen.toNat = schemeKeyLength k then s.beginCommand.encryptFrame k
      else s.beginCommand.raise .encrypt .invalidKey := by
  refine (if_neg h0).trans ((if_neg (Nat.not_lt.2 (schemeOfKind_bound hk).2)).trans ?_)
  rw [State.beginCommand_encKind, hk]
  rfl

/-- A key of the wrong length (R197). -/
theorem exec_encrypt_of_wrongKey {k : Scheme} (hk : schemeOfKind s.encKind = some k)
    (hlen : s.keyLen.toNat ≠ schemeKeyLength k) :
    exec .encrypt s = .next { s with status := 0x03, pktLen := 0x0000, epoch := s.epoch + 1 } :=
  congrArg Host.Outcome.next
    ((State.performEncrypt_of_scheme h0 hk).trans ((if_neg hlen).trans (s.fail_eq .encrypt .invalidKey)))

/-- No entropy (R201, R205). -/
theorem exec_encrypt_of_noEntropy {k : Scheme} (hk : s.keyedFor k) (hd : s.entropyDraw = none) :
    exec .encrypt s = .next
      { s with
        status := 0x05, pktLen := 0x0000, pt := [], iv := [], chain := []
        entropyPort := s.entropyPort.tail, entropyReads := s.entropyReads + 1, epoch := s.epoch + 1 } := by
  obtain ⟨hk, hlen⟩ := hk
  have hfail : s.beginCommand.encryptFrame k =
      (s.beginCommand.loadPlain.entropyRead.raise .encrypt .entropySource).forgetWork := by
    rw [State.encryptFrame, show s.beginCommand.entropyDraw = none from hd]
  exact congrArg Host.Outcome.next
    ((State.performEncrypt_of_scheme h0 hk).trans ((if_pos hlen).trans (hfail.trans s.entropyFailure_eq)))

/-- A successful encryption (R198 to R204). -/
theorem exec_encrypt_of_draw {k : Scheme} {iv : Block} (hk : s.keyedFor k) (hd : s.entropyDraw = some iv) :
    exec .encrypt s = .next (s.beginCommand.sealFrame k iv) :=
  congrArg Host.Outcome.next (State.performEncrypt_some h0 hk hd)

end

/-- Settles O34. -/
theorem encryptRefusalsInOrder : Obligations.EncryptRefusalsInOrder :=
  ⟨fun _ h => ⟨_, exec_encrypt_of_noFrame h⟩,
    fun _ h0 hkind => ⟨_, exec_encrypt_of_unrecognised h0 hkind⟩,
    fun _ h0 hkind => ⟨_, exec_encrypt_of_none h0 hkind, rfl⟩,
    fun _ _ h0 hk hlen => ⟨_, exec_encrypt_of_wrongKey h0 hk hlen⟩,
    fun _ _ h0 hk hd => ⟨_, _, _, _, exec_encrypt_of_noEntropy h0 hk hd⟩⟩

/-- Settles O31: the Frame is stored in PB from its first byte on, and no other buffer byte is written. -/
theorem encryptPassesThroughUnderNone : Obligations.EncryptPassesThroughUnderNone := by
  intro s h0 hkind
  refine ⟨_, exec_encrypt_of_none h0 hkind, rfl, ?packet, rfl, rfl, rfl, rfl, ⟨?key, ?ev, ?fb, ?pb⟩,
    State.sameInputs.refl s, ⟨rfl, rfl⟩, ⟨rfl, rfl, rfl, rfl, rfl, rfl⟩⟩
  case packet =>
    refine (congrArg _ s.length_frame.symm).trans (State.bytes_eq fun i hi => ?_)
    rw [State.byteAt_stored (b := .pb) (a := 0) (bs := s.frame) (by rfl) (by omega) (by omega)]
    congr 1; omega
  case key => exact State.byteAt_congr (b := .key) rfl rfl
  case ev => exact State.byteAt_congr (b := .ev) rfl rfl
  case fb => exact fun a _ => State.byteAt_congr (b := .fb) rfl rfl a
  case pb =>
    exact fun a ha => State.byteAt_beside (s := s) (b := .pb) (a := 0) (bs := s.frame) (by rfl) (by rfl)
      (by rw [State.length_frame]; omega)

/-! ### The packet of a successful encryption -/

/-- A drawn IV is in IV_HISTORY afterwards, and nothing else joins it (R200). -/
theorem State.mem_sealed_ivHistory (s : State) (k : Scheme) (iv x : Block) :
    x ∈ (s.beginCommand.sealFrame k iv).ivHistory ↔ x = iv ∨ x ∈ s.ivHistory := by
  rw [State.sealed_ivHistory]
  split
  case isTrue hold => exact ⟨.inr, fun h => h.elim (fun e => e ▸ hold) id⟩
  case isFalse => exact List.mem_cons

/-- The length of a packet as a number: nothing wraps (R204, R208). -/
theorem State.toNat_sealed_pktLen {s : State} (hc : s.cfg.wellFormed = true) (hf : s.frameLen.toNat ≤ fbCap s.cfg)
    (k : Scheme) (iv : Block) : (s.beginCommand.sealFrame k iv).pktLen.toNat = 17 + s.paddedLen := by
  rw [State.sealed_pktLen, (State.packetLen_bound hc hf).2]

/-- Settles O32. -/
theorem encryptAssemblesThePacket : Obligations.EncryptAssemblesThePacket := by
  intro s k iv hc h0 hf hk hd
  have hlen := State.toNat_sealed_pktLen hc hf k iv
  refine ⟨_, exec_encrypt_of_draw h0 hk hd, s.sealed_status k iv, State.sealed_packet hc hf k iv, hlen, ?_,
    s.sealed_obs k iv, ⟨s.sealed_entropyPort k iv, s.sealed_entropyReads k iv⟩, s.mem_sealed_ivHistory k iv⟩
  rw [hlen, State.paddedLen, ceil16]
  omega

/-- Settles O33: of all buffers ENCRYPT writes PB alone, and there its packet alone. -/
theorem encryptTouchesOnlyThePacket : Obligations.EncryptTouchesOnlyThePacket := by
  intro s k iv _ h0 _ hk hd
  refine ⟨_, exec_encrypt_of_draw h0 hk hd, ⟨?key, ?ev, ?fb, ?pb⟩, ?inputs, s.sealed_frameLen k iv,
    s.sealed_crc k iv, ⟨s.sealed_clockPort k iv, s.sealed_clockReads k iv⟩⟩
  case key => exact State.byteAt_congr (b := .key) (s.sealed_key k iv) (s.sealed_resets k iv)
  case ev => exact State.byteAt_congr (b := .ev) (s.sealed_ev k iv) (s.sealed_resets k iv)
  case fb => exact fun a _ => State.byteAt_congr (b := .fb) (s.sealed_fb k iv) (s.sealed_resets k iv) a
  case pb => exact fun a ha => s.beginCommand.sealFrame_other k iv a (Nat.le_of_not_lt fun h => ha ⟨Nat.zero_le a, h⟩)
  case inputs => exact State.performEncrypt_some h0 hk hd ▸ s.sameInputs_performEncrypt

/-! ### What the packet depends on -/

/-- The packet-type byte of a frame does not reach its packet (R198). -/
theorem wirePacket_congr {f f' : List Byte} (hlen : f.length = f'.length) (hrest : f.drop 1 = f'.drop 1)
    (c : CipherBinding) (k : Scheme) (key : List Byte) (iv : Block) :
    wirePacket c k key iv f = wirePacket c k key iv f' := by
  simp only [wirePacket, cipherBlocks, blockCount, paddedPlain, hlen, hrest]

/-- No key is longer than KEY (30_encoding.md R111). -/
theorem schemeKeyLength_le (k : Scheme) : schemeKeyLength k ≤ keySize := by
  cases k <;> decide

/-- Two failures with one code leave the same result: no packet. -/
theorem State.sameResult_of_withdrawn {t t' : State} (hs : t.status = t'.status) (hp : t.pktLen = 0)
    (hp' : t'.pktLen = 0) : t.status = t'.status ∧ t.pktLen = t'.pktLen ∧ t.packet = t'.packet := by
  refine ⟨hs, hp.trans hp'.symm, ?_⟩
  rw [State.packet, State.packet, hp, hp']
  rfl

/-- Settles O37: what is the same decides which ending is taken, and an ending's result is read off it. -/
theorem encryptDependsOnFrameKeyAndDrawAlone : Obligations.EncryptDependsOnFrameKeyAndDrawAlone := by
  intro s s' t t' hcfg hc hf hscheme hkind hlen hframe hkey hbytes hdraw ht ht'
  rcases s.performEncrypt_cases with ⟨h0, -⟩ | ⟨h0, hbad, -⟩ | ⟨-, hnone, -⟩ | ⟨k, h0, hk, hl, -⟩ |
    ⟨k, h0, hk, hl, hd, -⟩ | ⟨k, iv, h0, hk, hl, hd, -⟩
  · cases (exec_encrypt_of_noFrame h0).symm.trans ht
    cases (exec_encrypt_of_noFrame (hframe ▸ h0)).symm.trans ht'
    exact State.sameResult_of_withdrawn rfl rfl rfl
  · cases (exec_encrypt_of_unrecognised h0 hbad).symm.trans ht
    cases (exec_encrypt_of_unrecognised (hframe ▸ h0) (hkind ▸ hbad)).symm.trans ht'
    exact State.sameResult_of_withdrawn rfl rfl rfl
  · exact absurd hnone hscheme
  · cases (exec_encrypt_of_wrongKey h0 hk hl).symm.trans ht
    cases (exec_encrypt_of_wrongKey (hframe ▸ h0) (hkind ▸ hk) (hlen ▸ hl)).symm.trans ht'
    exact State.sameResult_of_withdrawn rfl rfl rfl
  · cases (exec_encrypt_of_noEntropy h0 ⟨hk, hl⟩ hd).symm.trans ht
    cases (exec_encrypt_of_noEntropy (hframe ▸ h0) ⟨hkind ▸ hk, hlen ▸ hl⟩ (hdraw ▸ hd)).symm.trans ht'
    exact State.sameResult_of_withdrawn rfl rfl rfl
  · cases (exec_encrypt_of_draw h0 ⟨hk, hl⟩ hd).symm.trans ht
    cases (exec_encrypt_of_draw (hframe ▸ h0) ⟨hkind ▸ hk, hlen ▸ hl⟩ (hdraw ▸ hd)).symm.trans ht'
    have hpadded : s.paddedLen = s'.paddedLen := by rw [State.paddedLen, State.plainLen, hframe]; rfl
    have hsecret : s.keyFor k = s'.keyFor k := State.bytes_ext fun i hi => by
      rw [Nat.zero_add, hkey i (Nat.lt_of_lt_of_le hi (schemeKeyLength_le k))]
    have hplain : s.frame.drop 1 = s'.frame.drop 1 := by
      rw [State.frame_drop_one, State.frame_drop_one, State.plainLen, State.plainLen, ← hframe]
      exact State.bytes_ext fun i hi => hbytes _ (by omega) (by omega)
    refine ⟨by rw [State.sealed_status, State.sealed_status], ?_, ?_⟩
    · rw [State.sealed_pktLen, State.sealed_pktLen, hpadded]
    · rw [State.sealed_packet hc hf, State.sealed_packet (hcfg ▸ hc) (hcfg ▸ hframe ▸ hf), ← hcfg, ← hsecret]
      exact wirePacket_congr (by rw [State.length_frame, State.length_frame, hframe]) hplain _ _ _ _

end Sys2Proof.Machine
end

section
/-! The properties of R206: a packet decrypts to its frame, and fresh IVs make packets of one frame differ. Both are
about the byte string `wirePacket`, its blocks and the chaining mode. -/

namespace Sys2Proof.Machine

/-! ### Blocks and byte strings -/

theorem toList_xorBlock (x y : Block) : (xorBlock x y).toList = xorBytes x.toList y.toList :=
  Block.toList_ofBytes (by simp)

/-- The same block taken in twice cancels. -/
theorem xorBlock_cancel (x y : Block) : xorBlock (xorBlock x y) y = x := by
  apply Vector.toList_inj.1
  rw [toList_xorBlock, toList_xorBlock, xorBytes_cancel (by simp)]

theorem xorBlock_comm (x y : Block) : xorBlock x y = xorBlock y x := by
  rw [xorBlock, xorBytes_comm]
  rfl

theorem xorBlock_injective (x : Block) : Function.Injective (xorBlock x) := by
  intro y z h
  rw [← xorBlock_cancel y x, xorBlock_comm y, h, xorBlock_comm x, xorBlock_cancel]

theorem joinBlocks_cons (b : Block) (bs : List Block) : joinBlocks (b :: bs) = b.toList ++ joinBlocks bs :=
  List.flatMap_cons

@[simp] theorem length_joinBlocks (bs : List Block) : (joinBlocks bs).length = 16 * bs.length := by
  simp [joinBlocks, Nat.mul_comm]

@[simp] theorem length_splitBlocks (n : Nat) (l : List Byte) : (splitBlocks n l).length = n := by
  induction n generalizing l with
  | zero => rfl
  | succ n ih => rw [splitBlocks, List.length_cons, ih]

/-- Splitting finds the blocks again, whatever follows them. -/
theorem splitBlocks_joinBlocks (bs : List Block) (rest : List Byte) :
    splitBlocks bs.length (joinBlocks bs ++ rest) = bs := by
  induction bs with
  | nil => rfl
  | cons b bs ih =>
    rw [joinBlocks_cons, List.append_assoc, List.length_cons, splitBlocks, List.take_left' b.length_toList,
      List.drop_left' b.length_toList, Block.ofBytes_toList, ih]

/-- A string of whole blocks is its blocks joined. -/
theorem joinBlocks_splitBlocks {n : Nat} {l : List Byte} (h : l.length = 16 * n) :
    joinBlocks (splitBlocks n l) = l := by
  induction n generalizing l with
  | zero => exact (List.length_eq_zero_iff.1 h).symm
  | succ n ih =>
    rw [splitBlocks, joinBlocks_cons, Block.toList_ofBytes (by rw [List.length_take]; omega),
      ih (by rw [List.length_drop]; omega), List.take_append_drop]

/-! ### The chaining mode (R202) -/

@[simp] theorem length_cbcEncrypt (enc : Block → Block) (prev : Block) (ps : List Block) :
    (cbcEncrypt enc prev ps).length = ps.length := by
  induction ps generalizing prev with
  | nil => rfl
  | cons p ps ih => rw [cbcEncrypt, List.length_cons, ih, List.length_cons]

/-- Chaining is undone block by block where the cipher is (95_test_vectors.md S4). -/
theorem cbcDecrypt_cbcEncrypt {enc dec : Block → Block} (h : Function.LeftInverse dec enc) (prev : Block)
    (ps : List Block) : cbcDecrypt dec prev (cbcEncrypt enc prev ps) = ps := by
  induction ps generalizing prev with
  | nil => rfl
  | cons p ps ih => rw [cbcEncrypt, cbcDecrypt, h, xorBlock_cancel, ih]

/-! ### The packet as a byte string (R204) -/

section
variable (c : CipherBinding) (k : Scheme) (key : List Byte) (iv : Block) (f : List Byte)

theorem length_cipherBlocks : (cipherBlocks c k key iv f).length = blockCount f := by
  rw [cipherBlocks, length_cbcEncrypt, length_splitBlocks]

/-- The identifier is one byte, the ciphertext as long as the padded plaintext, and the IV is the rest. -/
theorem drop_wirePacket_iv : (wirePacket c k key iv f).drop (1 + ceil16 (f.length - 1)) = iv.toList := by
  have hlen : (joinBlocks (cipherBlocks c k key iv f)).length = ceil16 (f.length - 1) := by
    rw [length_joinBlocks, length_cipherBlocks, blockCount, ceil16_eq]
  rw [wirePacket, Nat.add_comm, List.drop_succ_cons, List.drop_left' hlen]

/-- The ciphertext's blocks stand after the identifier. -/
theorem splitBlocks_wirePacket :
    splitBlocks (blockCount f) ((wirePacket c k key iv f).drop 1) = cipherBlocks c k key iv f := by
  rw [← length_cipherBlocks c k key iv f]
  exact splitBlocks_joinBlocks _ _

/-- The padded plaintext is whole blocks. -/
theorem joinBlocks_paddedPlain : joinBlocks (splitBlocks (blockCount f) (paddedPlain f)) = paddedPlain f :=
  joinBlocks_splitBlocks (by rw [length_paddedPlain, blockCount, ceil16_eq])

/-- The first ciphertext block: the first plaintext block crossed with the IV (R202). -/
theorem take_wirePacket_firstBlock (h : 2 ≤ f.length) :
    ((wirePacket c k key iv f).drop 1).take 16 =
      (blockEnc c k key (xorBlock (Block.ofBytes ((paddedPlain f).take 16)) iv)).toList := by
  obtain ⟨n, hn⟩ : ∃ n, blockCount f = n + 1 := ⟨blockCount f - 1, by unfold blockCount ceil16; omega⟩
  rw [wirePacket, List.drop_succ_cons, List.drop_zero, cipherBlocks, hn, splitBlocks, cbcEncrypt, joinBlocks_cons,
    List.append_assoc, List.take_left' (Block.length_toList _)]

end

/-- Different IVs lead one frame's first ciphertext blocks apart, as the cipher loses nothing. -/
theorem firstBlock_ne {c : CipherBinding} {k : Scheme} {key : List Byte} (henc : Function.Injective (blockEnc c k key))
    {f : List Byte} (hf : 2 ≤ f.length) {iv iv' : Block} (hne : iv' ≠ iv) :
    ((wirePacket c k key iv' f).drop 1).take 16 ≠ ((wirePacket c k key iv f).drop 1).take 16 := by
  rw [take_wirePacket_firstBlock _ _ _ _ _ hf, take_wirePacket_firstBlock _ _ _ _ _ hf]
  exact fun h => hne (xorBlock_injective _ (henc (Vector.toList_inj.1 h)))

/-! ### Round trip -/

theorem State.length_keyFor (s : State) (k : Scheme) : (s.keyFor k).length = schemeKeyLength k :=
  State.length_bytes _ _ _ _

/-- Settles O35: the packet's three parts are found again, and the chaining is undone by an inverse of the cipher. -/
theorem decryptionRecoversTheFrame : Obligations.DecryptionRecoversTheFrame := by
  intro s k iv hc h0 hf hk hd hcipher
  obtain ⟨dec, hdec⟩ := (blockEnc_injective hcipher k (s.length_keyFor k)).hasLeftInverse
  refine ⟨_, dec, exec_encrypt_of_draw h0 hk hd, hdec, ?_⟩
  rw [State.sealed_packet hc hf, ← s.length_frame, drop_wirePacket_iv, Block.ofBytes_toList]
  change joinBlocks (cbcDecrypt dec iv (splitBlocks (blockCount s.frame) _)) = paddedPlain s.frame
  rw [splitBlocks_wirePacket, cipherBlocks, cbcDecrypt_cbcEncrypt hdec, joinBlocks_paddedPlain]

/-! ### Fresh IVs -/

section
variable (s : State) (k : Scheme) (iv : Block)

/-- The first ciphertext block in PB is the packet's. -/
theorem State.sealed_firstBlock : (s.beginCommand.sealFrame k iv).bytes .pb 1 16 =
    ((wirePacket s.cfg.cipher k (s.keyFor k) iv s.frame).drop 1).take 16 :=
  State.bytes_slice (State.sealFrame_packet s.beginCommand k iv) 1 16 (by omega)

/-- After an encryption the frame and the key stand as before, ready for the next one (R199, R203). -/
theorem State.sealed_frame : (s.beginCommand.sealFrame k iv).frame = s.frame := by
  rw [State.frame, State.sealed_frameLen]
  exact State.bytes_congr (b := .fb) (s.sealed_fb k iv) (s.sealed_resets k iv) _ _

theorem State.sealed_keyFor : (s.beginCommand.sealFrame k iv).keyFor k = s.keyFor k :=
  State.bytes_congr (b := .key) (s.sealed_key k iv) (s.sealed_resets k iv) _ _

theorem State.sealed_keyedFor : (s.beginCommand.sealFrame k iv).keyedFor k ↔ s.keyedFor k := by
  rw [State.keyedFor, State.sealed_encKind, State.sealed_keyLen]
  rfl

end

/-- Settles O36: the second encryption finds the same frame, scheme and key, and its draw is not in IV_HISTORY, where
the first draw is. -/
theorem freshIvGivesDifferentPackets : Obligations.FreshIvGivesDifferentPackets := by
  intro s t k iv iv' hc h2 hf hk hd hcipher ht hfresh hd'
  have h0 : s.frameLen ≠ 0 := by
    intro h
    simp [h] at h2
  cases (exec_encrypt_of_draw h0 hk hd).symm.trans ht
  have hcfg := s.sealed_cfg k iv
  have hframe := s.sealed_frame k iv
  have hframeLen := s.sealed_frameLen k iv
  have hkey := s.sealed_keyFor k iv
  have hkeyed := (s.sealed_keyedFor k iv).2 hk
  have hne : iv' ≠ iv := fun e => hfresh iv' hd' ((s.mem_sealed_ivHistory k iv iv').2 (.inl e))
  refine ⟨_, exec_encrypt_of_draw (hframeLen ▸ h0) hkeyed hd', State.sealed_status _ _ _, ?length, ?ivs, ?blocks⟩
  case length => rw [State.sealed_pktLen, State.sealed_pktLen, State.paddedLen, State.plainLen, hframeLen]; rfl
  case ivs =>
    rw [State.sealed_packet (hcfg ▸ hc) (hcfg ▸ hframeLen ▸ hf), State.sealed_packet hc hf, hcfg, hkey, hframe,
      ← s.length_frame, drop_wirePacket_iv, drop_wirePacket_iv]
    exact fun h => hne (Vector.toList_inj.1 h)
  case blocks =>
    rw [State.sealed_firstBlock, State.sealed_firstBlock, hcfg, hkey, hframe]
    exact firstBlock_ne (blockEnc_injective hcipher k (s.length_keyFor k)) (by rwa [s.length_frame]) hne

end Sys2Proof.Machine
end

section
/-! The statements about SEND and dispatch (43_pipeline.md R220 to R224). SEND is BUILD and then ENCRYPT, so what it
does is read off the two commands' own statements; what BUILD leaves is a frame that ENCRYPT accepts. -/

namespace Sys2Proof.Machine

/-- Settles O4. -/
theorem stepRunsTheDecodedCommand : Obligations.StepRunsTheDecodedCommand := by
  intro s c i rest hin hdec
  rw [step_cons hin, perform_cmd, runCommand_ok hdec]

/-- Settles O39: SEND's two endings, by the error that BUILD left. -/
theorem sendIsBuildThenEncrypt : Obligations.SendIsBuildThenEncrypt := by
  intro s t ht
  cases ht
  rcases execSend_cases s with ⟨herr, e⟩ | ⟨hok, e⟩
  · exact ⟨fun h => absurd h herr, fun _ => ⟨_, e⟩⟩
  · exact ⟨fun _ => e, fun h => absurd hok h⟩

/-! ### What BUILD leaves for ENCRYPT -/

/-- SEND of an extended event that fits is ENCRYPT of the built frame. -/
theorem exec_send_of_buildable {s : State} (hb : s.buildable) :
    exec .send s = exec .encrypt s.beginCommand.buildFrame := by
  refine (sendIsBuildThenEncrypt s _ (exec_build_of_buildable hb)).1 ?_
  rw [State.err, s.built_status]
  rfl

section
variable {s : State}

theorem State.toNat_built_frameLen (hc : s.cfg.wellFormed = true) (hb : s.buildable) :
    s.beginCommand.buildFrame.frameLen.toNat = 38 + s.size.toNat := by
  rw [s.built_frameLen, (State.frameLen_bound hc hb).2]

/-- A frame is present, so OperandError cannot occur in SEND (R220). -/
theorem State.built_frameLen_ne_zero (hc : s.cfg.wellFormed = true) (hb : s.buildable) :
    s.beginCommand.buildFrame.frameLen ≠ 0 := by
  intro h
  have hlen := State.toNat_built_frameLen hc hb
  bv_omega

theorem State.built_frameLen_le (hc : s.cfg.wellFormed = true) (hb : s.buildable) :
    s.beginCommand.buildFrame.frameLen.toNat ≤ fbCap s.beginCommand.buildFrame.cfg := by
  rw [State.toNat_built_frameLen hc hb, s.built_cfg]
  exact (State.frameLen_bound hc hb).1

theorem State.built_keyFor (s : State) (k : Scheme) : s.beginCommand.buildFrame.keyFor k = s.keyFor k :=
  State.bytes_congr (b := .key) s.built_key s.built_resets _ _

theorem State.built_keyedFor (s : State) (k : Scheme) : s.beginCommand.buildFrame.keyedFor k ↔ s.keyedFor k := by
  rw [State.keyedFor, s.built_encKind, s.built_keyLen]
  rfl

theorem State.built_entropyDraw (s : State) : s.beginCommand.buildFrame.entropyDraw = s.entropyDraw := by
  rw [State.entropyDraw, s.built_entropyPort, s.built_entropyReads]
  rfl

/-- BUILD reads the clock at most once (40_frame_builder.md R135, R136). -/
theorem State.built_clockReads_le (s : State) : s.beginCommand.buildFrame.clockReads ≤ s.clockReads + 1 := by
  rw [s.built_clockReads]
  split <;> omega

/-- The bytes and the inputs that a successful BUILD leaves alone (40_frame_builder.md R130 "Not touched"). -/
theorem State.built_untouched (hc : s.cfg.wellFormed = true) (hb : s.buildable) :
    s.sameBytesBut s.beginCommand.buildFrame 0 (38 + s.size.toNat) 0 0 ∧ s.sameInputs s.beginCommand.buildFrame := by
  obtain ⟨t, ht, hbytes, hinputs, -⟩ := buildTouchesOnlyItsOutputs s hc hb
  cases (exec_build_of_buildable hb).symm.trans ht
  exact ⟨hbytes, hinputs⟩

/-- BUILD does not read the entropy port (60_exceptions.md R285). -/
theorem State.sameEntropy_built (s : State) : s.sameEntropy s.beginCommand.buildFrame :=
  ⟨s.built_entropyPort, s.built_entropyReads, s.built_ivHistory, s.built_pt, s.built_iv, s.built_chain⟩

/-- What writes PB alone after a command that wrote FB alone leaves every byte outside the two ranges. -/
theorem State.sameBytesBut.fb_then_pb {t u : State} {fbLo fbHi pbLo pbHi : Nat}
    (h : s.sameBytesBut t fbLo fbHi 0 0) (h' : t.sameBytesBut u 0 0 pbLo pbHi) :
    s.sameBytesBut u fbLo fbHi pbLo pbHi := by
  obtain ⟨hkey, hev, hfb, hpb⟩ := h
  obtain ⟨hkey', hev', hfb', hpb'⟩ := h'
  exact ⟨fun a => (hkey' a).trans (hkey a), fun a => (hev' a).trans (hev a),
    fun a ha => (hfb' a (by omega)).trans (hfb a ha), fun a ha => (hpb' a ha).trans (hpb a (by omega))⟩

theorem State.sameEntropy.trans {t u : State} (h : s.sameEntropy t) (h' : t.sameEntropy u) : s.sameEntropy u := by
  unfold State.sameEntropy at *
  simp_all

/-- The frame stays where FB and its length do. -/
theorem State.frame_of_sameBytesBut {t : State} {pbLo pbHi : Nat} (h : s.sameBytesBut t 0 0 pbLo pbHi)
    (hlen : t.frameLen = s.frameLen) : t.frame = s.frame := by
  obtain ⟨-, -, hfb, -⟩ := h
  rw [State.frame, hlen]
  exact State.bytes_ext fun _ _ => hfb _ (by omega)

end

/-! ### Success -/

/-- Settles O40: O32 and O33 of the built frame, which O22 and O24 describe. -/
theorem sendCarriesTheEventToThePacket : Obligations.SendCarriesTheEventToThePacket := by
  intro s k iv hc hb hk hd
  have hcfg : s.beginCommand.buildFrame.cfg.wellFormed = true := s.built_cfg.symm ▸ hc
  have h0 := State.built_frameLen_ne_zero hc hb
  have hcap := State.built_frameLen_le hc hb
  have hkeyed := (s.built_keyedFor k).2 hk
  have hdraw := s.built_entropyDraw.trans hd
  have hbuiltLen := State.toNat_built_frameLen hc hb
  obtain ⟨hbuiltBytes, hbuiltInputs⟩ := State.built_untouched hc hb
  obtain ⟨t, ht, hstatus, hpacket, hpktLen, -, hobs, ⟨hport, hreads⟩, hivs⟩ :=
    encryptAssemblesThePacket _ k iv hcfg h0 hcap hkeyed hdraw
  obtain ⟨t', ht', hbytes, hinputs, hframeLen, hcrc, -, hclock⟩ :=
    encryptTouchesOnlyThePacket _ k iv hcfg h0 hcap hkeyed hdraw
  cases ht.symm.trans ht'
  have hplain : s.beginCommand.buildFrame.frameLen.toNat - 1 = 37 + s.size.toNat := by omega
  rw [hplain] at hpktLen hbytes
  refine ⟨t, (exec_send_of_buildable hb).trans ht, hstatus, ?frame, hframeLen ▸ hbuiltLen, ?packet, hpktLen,
    hcrc.trans s.built_crc, ?obs, ?ivs, hbuiltInputs.trans hinputs,
    ⟨hport.trans (congrArg List.tail s.built_entropyPort), hreads.trans (congrArg (· + 1) s.built_entropyReads)⟩,
    hclock.trans_le s.built_clockReads_le, hbuiltBytes.fb_then_pb hbytes⟩
  case frame => exact (State.frame_of_sameBytesBut hbytes hframeLen).trans (State.built_frame hc hb)
  case packet => rw [hpacket, s.built_cfg, s.built_keyFor, State.built_frame hc hb]
  case obs => rw [hobs, s.built_obs]; simp
  case ivs => exact fun x => s.built_ivHistory ▸ hivs x

/-- Settles O41: O31 of the built frame, which O22 and O24 describe. -/
theorem sendUnderNoneSendsTheFrame : Obligations.SendUnderNoneSendsTheFrame := by
  intro s hc hb hkind
  have hbuiltLen := State.toNat_built_frameLen hc hb
  have hbuiltFrame := State.built_frame hc hb
  obtain ⟨hbuiltBytes, hbuiltInputs⟩ := State.built_untouched hc hb
  obtain ⟨t, ht, hstatus, hpacket, hpktLen, hobs, hcrc, hframeLen, hbytes, hinputs, ⟨-, hclock⟩, hentropy⟩ :=
    encryptPassesThroughUnderNone _ (State.built_frameLen_ne_zero hc hb) (s.built_encKind.trans hkind)
  rw [hbuiltLen] at hbytes
  refine ⟨t, (exec_send_of_buildable hb).trans ht, hstatus, ?frame, hpacket.trans hbuiltFrame, hframeLen ▸ hbuiltLen,
    hpktLen.trans hframeLen.symm, hcrc.trans s.built_crc, ?obs, hbuiltInputs.trans hinputs,
    s.sameEntropy_built.trans hentropy, hclock.trans_le s.built_clockReads_le, hbuiltBytes.fb_then_pb hbytes⟩
  case frame => exact (State.frame_of_sameBytesBut hbytes hframeLen).trans hbuiltFrame
  case obs => rw [hobs, s.built_obs]; simp

/-! ### Failure -/

/-- A BUILD that refuses changes STATUS and FRAME_LEN alone (40_frame_builder.md R143). -/
theorem exec_build_of_not_buildable {s : State} (h : ¬ s.buildable) :
    ∃ (v : Byte) (e : Nat), (v = 0x01 ∨ v = 0x02) ∧
      exec .build s = .next { s with status := v, frameLen := 0x0000, epoch := e } := by
  obtain ⟨hother, hlarge⟩ := buildRefusalsInOrder
  by_cases hkind : s.evKind = 1
  · obtain ⟨e, he⟩ := hlarge s hkind (Nat.lt_of_not_le fun hsize => h ⟨hkind, hsize⟩)
    exact ⟨_, e, .inr rfl, he⟩
  · obtain ⟨e, he⟩ := hother s hkind
    exact ⟨_, e, .inl rfl, he⟩

/-- SEND after a BUILD that refused: no frame and no packet (R220). -/
theorem exec_send_of_not_buildable {s : State} (h : ¬ s.buildable) :
    ∃ (v : Byte) (e : Nat), (v = 0x01 ∨ v = 0x02) ∧
      exec .send s = .next { s with status := v, frameLen := 0x0000, pktLen := 0x0000, epoch := e } := by
  obtain ⟨v, e, hv, hbuild⟩ := exec_build_of_not_buildable h
  have herr : v.extractLsb' 0 4 ≠ 0 := by
    rcases hv with rfl | rfl <;> decide
  obtain ⟨e', hsend⟩ := (sendIsBuildThenEncrypt s _ hbuild).2 herr
  exact ⟨v, e', hv, hsend⟩

/-- A failure of ENCRYPT withdraws the packet and leaves the built frame (R220; 60_exceptions.md R266). -/
theorem exec_send_withdraws {s u : State} {v : Byte} {e : Nat} (hframe : u.frame = s.wireFrame)
    (hentropy : s.sameEntropy u) (hsend : exec .send s = .next { u with status := v, pktLen := 0x0000, epoch := e }) :
    ∃ t, exec .send s = .next t ∧ t.status = v ∧ t.frame = s.wireFrame ∧ t.pktLen = 0 ∧ s.sameEntropy t :=
  ⟨_, hsend, rfl, hframe, rfl, hentropy⟩

/-- The same of an entropy failure, which reads the port (42_encryption_wrapper.md R201, R205). -/
theorem exec_send_withdraws_entropy {s u : State} {k : Scheme} (hframe : u.frame = s.wireFrame)
    (hentropy : s.sameEntropy u) (h0 : u.frameLen ≠ 0) (hk : u.keyedFor k) (hd : u.entropyDraw = none)
    (hsend : exec .send s = exec .encrypt u) :
    ∃ t, exec .send s = .next t ∧ t.status = 0x05 ∧ t.frame = s.wireFrame ∧ t.pktLen = 0 ∧
      s.entropyReadOnce t ∧ t.ivHistory = s.ivHistory := by
  obtain ⟨hport, hreads, hhistory, -⟩ := hentropy
  exact ⟨_, hsend.trans (exec_encrypt_of_noEntropy h0 hk hd), rfl, hframe, rfl,
    ⟨congrArg List.tail hport, congrArg (· + 1) hreads⟩, hhistory⟩

/-- Settles O42: a refusal of BUILD, or one of ENCRYPT's failures on the built frame, which none of them touches. -/
theorem sendFailuresLeaveNoPacket : Obligations.SendFailuresLeaveNoPacket := by
  refine ⟨fun s hb => ?build, fun s hc hb hkind => ?scheme, fun s k hc hb hk hlen => ?key,
    fun s k hc hb hk hd => ?entropy⟩
  case build =>
    obtain ⟨v, e, hv, hsend⟩ := exec_send_of_not_buildable hb
    exact ⟨_, hsend, hv, rfl, rfl, rfl, rfl, State.sameInputs.refl s, ⟨rfl, rfl⟩, ⟨rfl, rfl, rfl, rfl, rfl, rfl⟩⟩
  case scheme =>
    have hfail := exec_encrypt_of_unrecognised (State.built_frameLen_ne_zero hc hb) (s.built_encKind.symm ▸ hkind)
    exact exec_send_withdraws (State.built_frame hc hb) s.sameEntropy_built ((exec_send_of_buildable hb).trans hfail)
  case key =>
    have hfail := exec_encrypt_of_wrongKey (State.built_frameLen_ne_zero hc hb) (s.built_encKind.symm ▸ hk)
      (s.built_keyLen.symm ▸ hlen)
    exact exec_send_withdraws (State.built_frame hc hb) s.sameEntropy_built ((exec_send_of_buildable hb).trans hfail)
  case entropy =>
    exact exec_send_withdraws_entropy (State.built_frame hc hb) s.sameEntropy_built (State.built_frameLen_ne_zero hc hb)
      ((s.built_keyedFor k).2 hk) (s.built_entropyDraw.trans hd) (exec_send_of_buildable hb)

end Sys2Proof.Machine
end

section
/-! The statement about the block cipher (44_block_cipher.md R236): a step of a finite type to itself that gives no two
arguments the same result reaches every result. -/

namespace Sys2Proof.Machine

/-- A block is fixed by its sixteen bytes, each one of 256. -/
theorem finite_block : Finite Block :=
  have : Finite Byte := Finite.of_equiv _ BitVec.equivFin.symm.toEquiv
  Finite.of_injective (fun (x : Block) (i : Fin 16) => x[i]) fun _ _ h =>
    Vector.ext fun i hi => congrFun h ⟨i, hi⟩

/-- Settles O38: AES under a key of its length is one to one, and the blocks are finitely many. -/
theorem aesPermutesBlocks : Obligations.AesPermutesBlocks := fun k _ hkey =>
  have := finite_block
  Finite.injective_iff_bijective.1 (blockEnc_aes_injective k hkey)

end Sys2Proof.Machine
end

section
/-! The statements about exceptions and ports (60_exceptions.md): every command answers a state, and what its endings
leave in STATUS, in the two lengths and in the two ports. ENCRYPT's endings are read once; SEND's are a refusal of
BUILD, or ENCRYPT's of the built frame. -/

namespace Sys2Proof.Machine

/-! ### No stop -/

/-- An error is a next state too, so a command answers one however it ends (60_exceptions.md R260). -/
theorem exec_answers (i : Instr) (s : State) : ∃ t, exec i s = .next t := by
  cases i with
  | build => exact ⟨_, rfl⟩
  | encrypt => exact ⟨_, rfl⟩
  | send => rcases execSend_cases s with ⟨-, e⟩ | ⟨-, e⟩ <;> exact ⟨_, e⟩
  | crcAppend => rcases execCrcAppend_cases s with ⟨-, e⟩ | ⟨-, e⟩ <;> exact ⟨_, e⟩
  | crcInit => exact ⟨_, rfl⟩
  | crcUpdate => exact ⟨_, rfl⟩

/-- A code that names no command is an error, not a stop (43_pipeline.md R225). -/
theorem runCommand_answers (c : Byte) (s : State) : ∃ t, runCommand c s = .next t := by
  cases hd : decode c with
  | ok i => exact runCommand_ok hd s ▸ exec_answers i s
  | error r => exact ⟨_, runCommand_illegal hd s⟩

theorem perform_answers (a : HostAction) (s : State) : ∃ t, perform a s = .next t := by
  cases a with
  | write sp off v =>
    by_cases hcmd : sp = .csr ∧ off = 0x00
    · obtain ⟨rfl, rfl⟩ := hcmd
      exact runCommand_answers v s
    · exact ⟨_, perform_write hcmd v s⟩
  | read sp off => exact ⟨_, rfl⟩
  | reset => exact ⟨_, rfl⟩

/-- Settles O44: a step is idle or performs the next action. -/
theorem everyStepHasASuccessor : Obligations.EveryStepHasASuccessor := by
  refine ⟨exec_answers, fun s => ?_⟩
  cases hin : s.inputs with
  | nil => exact ⟨_, step_nil hin⟩
  | cons a rest => exact step_cons hin ▸ perform_answers a _

/-! ### A port read at most once (R285) -/

/-- The clock port is not read, or read once (R285). -/
def State.clockAtMostOnce (s t : State) : Prop :=
  s.sameClock t ∨ t.clockReads = s.clockReads + 1 ∧ t.clockPort = s.clockPort.tail

/-- The entropy port is not read, or read once (R285). -/
def State.entropyAtMostOnce (s t : State) : Prop :=
  t.entropyReads = s.entropyReads ∧ t.entropyPort = s.entropyPort ∨ s.entropyReadOnce t

/-! ### ENCRYPT's endings -/

section
variable {s t : State}

/-- ENCRYPT succeeds or withdraws the packet, and reports OperandError for want of a frame alone (R261, R266;
42_encryption_wrapper.md R191, R205). -/
theorem encrypt_status (ht : exec .encrypt s = .next t) :
    t.status = 0x00 ∨ t.pktLen = 0 ∧ (t.status ∈ [0x03#8, 0x04#8, 0x05#8] ∨ t.status = 0x06 ∧ s.frameLen = 0) := by
  cases ht
  rcases s.performEncrypt_cases with ⟨h0, e⟩ | ⟨-, -, e⟩ | ⟨-, -, e⟩ | ⟨-, -, -, -, e⟩ | ⟨-, -, -, -, -, e⟩ |
    ⟨k, iv, -, -, -, -, e⟩ <;> rw [e]
  · rw [State.fail_eq]; exact .inr ⟨rfl, .inr ⟨rfl, h0⟩⟩
  · rw [State.fail_eq]; exact .inr ⟨rfl, .inl (by decide : 0x04#8 ∈ _)⟩
  · rw [State.passThrough_eq]; exact .inl rfl
  · rw [State.fail_eq]; exact .inr ⟨rfl, .inl (by decide : 0x03#8 ∈ _)⟩
  · rw [State.entropyFailure_eq]; exact .inr ⟨rfl, .inl (by decide : 0x05#8 ∈ _)⟩
  · exact .inl (s.sealed_status k iv)

/-- ENCRYPT's codes (R261). -/
theorem encrypt_codes (ht : exec .encrypt s = .next t) :
    t.status ∈ [0x00#8, 0x03#8, 0x04#8, 0x05#8, 0x06#8] := by
  rcases encrypt_status ht with h | ⟨-, h | ⟨h, -⟩⟩
  · exact h ▸ (by decide : 0x00#8 ∈ _)
  · exact (by decide : [0x03#8, 0x04#8, 0x05#8] ⊆ _) h
  · exact h ▸ (by decide : 0x06#8 ∈ _)

/-- ENCRYPT never reads the clock, and reads the entropy port in its last two endings (R285;
42_encryption_wrapper.md R200, R205). -/
theorem encrypt_ports (ht : exec .encrypt s = .next t) :
    s.sameClock t ∧ s.entropyAtMostOnce t := by
  cases ht
  rcases s.performEncrypt_cases with ⟨-, e⟩ | ⟨-, -, e⟩ | ⟨-, -, e⟩ | ⟨-, -, -, -, e⟩ | ⟨-, -, -, -, -, e⟩ |
    ⟨k, iv, -, -, -, -, e⟩ <;> rw [e]
  · rw [State.fail_eq]; exact ⟨⟨rfl, rfl⟩, .inl ⟨rfl, rfl⟩⟩
  · rw [State.fail_eq]; exact ⟨⟨rfl, rfl⟩, .inl ⟨rfl, rfl⟩⟩
  · rw [State.passThrough_eq]; exact ⟨⟨rfl, rfl⟩, .inl ⟨rfl, rfl⟩⟩
  · rw [State.fail_eq]; exact ⟨⟨rfl, rfl⟩, .inl ⟨rfl, rfl⟩⟩
  · rw [State.entropyFailure_eq]; exact ⟨⟨rfl, rfl⟩, .inr ⟨rfl, rfl⟩⟩
  · rw [State.sealed_eq]; exact ⟨⟨rfl, rfl⟩, .inr ⟨rfl, rfl⟩⟩

/-! ### BUILD's and SEND's endings -/

/-- BUILD succeeds or withdraws the frame (40_frame_builder.md R143, R146). -/
theorem build_status (ht : exec .build s = .next t) :
    t.status = 0x00 ∨ t.frameLen = 0 ∧ t.status ∈ [0x01#8, 0x02#8] := by
  by_cases hb : s.buildable
  · cases (exec_build_of_buildable hb).symm.trans ht
    exact .inl s.built_status
  · obtain ⟨v, e, hv, hbuild⟩ := exec_build_of_not_buildable hb
    cases hbuild.symm.trans ht
    exact .inr ⟨rfl, by simpa using hv⟩

/-- SEND ends as a refusing BUILD did, without a packet, or as ENCRYPT of the built frame does (43_pipeline.md R220). -/
theorem send_endings (ht : exec .send s = .next t) :
    (t.frameLen = 0 ∧ t.pktLen = 0 ∧ t.status ∈ [0x01#8, 0x02#8] ∧ s.sameClock t ∧ s.sameEntropy t) ∨
    s.buildable ∧ exec .encrypt s.beginCommand.buildFrame = .next t := by
  by_cases hb : s.buildable
  · exact .inr ⟨hb, (exec_send_of_buildable hb).symm.trans ht⟩
  · obtain ⟨v, e, hv, hsend⟩ := exec_send_of_not_buildable hb
    cases hsend.symm.trans ht
    exact .inl ⟨rfl, rfl, by simpa using hv, ⟨rfl, rfl⟩, ⟨rfl, rfl, rfl, rfl, rfl, rfl⟩⟩

/-- BUILD reads the clock under the date/time sentinel alone, and once (40_frame_builder.md R135, R136). -/
theorem State.built_clock (s : State) : s.clockAtMostOnce s.beginCommand.buildFrame := by
  rw [State.clockAtMostOnce, State.sameClock, s.built_clockPort, s.built_clockReads]
  cases s.sentinel
  · exact .inl ⟨rfl, rfl⟩
  · exact .inr ⟨rfl, rfl⟩

end

/-! ### What a failure withdraws (R266) -/

/-- The code is the low half of STATUS (10_state.md R37). -/
theorem State.err_of_success {t : State} (h : t.status = 0x00) : t.err = 0 := by
  rw [State.err, h]
  rfl

/-- ENCRYPT withdraws the packet whenever it leaves an error. -/
theorem encrypt_withdraws {s t : State} (ht : exec .encrypt s = .next t) (herr : t.err ≠ 0) : t.pktLen = 0 := by
  rcases encrypt_status ht with hok | ⟨hpkt, -⟩
  · exact absurd (State.err_of_success hok) herr
  · exact hpkt

/-- BUILD's codes are not among ENCRYPT's (R261). -/
theorem encrypt_err_not_build {s t : State} (ht : exec .encrypt s = .next t) : ¬ (t.err = 1 ∨ t.err = 2) := by
  have codes : ∀ v ∈ [0x00#8, 0x03#8, 0x04#8, 0x05#8, 0x06#8],
      ¬ (v.extractLsb' 0 4 = 1#4 ∨ v.extractLsb' 0 4 = 2#4) := by decide
  exact codes t.status (encrypt_codes ht)

/-- Settles O45. -/
theorem failureWithdrawsTheOutput : Obligations.FailureWithdrawsTheOutput := by
  refine fun s t => ⟨fun ht herr => ?build, encrypt_withdraws, fun ht herr => ?sendPacket, fun ht herr => ?sendFrame⟩
  case build =>
    rcases build_status ht with hok | ⟨hframe, -⟩
    · exact absurd (State.err_of_success hok) herr
    · exact hframe
  case sendPacket =>
    rcases send_endings ht with ⟨-, hpkt, -⟩ | ⟨-, hencrypt⟩
    · exact hpkt
    · exact encrypt_withdraws hencrypt herr
  case sendFrame =>
    rcases send_endings ht with ⟨hframe, -⟩ | ⟨-, hencrypt⟩
    · exact hframe
    · exact absurd herr (encrypt_err_not_build hencrypt)

/-! ### The codes (R261) -/

/-- Settles O47: a built frame is present, so SEND's ENCRYPT stage cannot report OperandError. -/
theorem statusCodesOfEachCommand : Obligations.StatusCodesOfEachCommand := by
  intro s t hc
  refine ⟨fun ht => ?build, fun ht => ?crcAppend, encrypt_codes, fun ht => ?send, fun ht => ?crcInit,
    fun ht => ?crcUpdate⟩
  case build =>
    rcases build_status ht with h | ⟨-, h⟩
    · exact h ▸ (by decide : 0x00#8 ∈ _)
    · exact .tail _ h
  case crcAppend =>
    rcases execCrcAppend_cases s with ⟨-, e⟩ | ⟨-, e⟩ <;> cases e.symm.trans ht
    · exact .head _
    · exact .tail _ (.head _)
  case send =>
    rcases send_endings ht with ⟨-, -, h, -⟩ | ⟨hb, hencrypt⟩
    · exact (by decide : [0x01#8, 0x02#8] ⊆ _) h
    · rcases encrypt_status hencrypt with h | ⟨-, h | ⟨-, hnone⟩⟩
      · exact h ▸ (by decide : 0x00#8 ∈ _)
      · exact (by decide : [0x03#8, 0x04#8, 0x05#8] ⊆ _) h
      · exact absurd hnone (State.built_frameLen_ne_zero hc hb)
  case crcInit => cases ht; rfl
  case crcUpdate => cases ht; rfl

/-! ### The ports (R285) -/

/-- BUILD reads the clock at most once and no entropy. -/
theorem build_ports {s t : State} (ht : exec .build s = .next t) :
    s.clockAtMostOnce t ∧ t.entropyReads = s.entropyReads ∧ t.entropyPort = s.entropyPort := by
  by_cases hb : s.buildable
  · cases (exec_build_of_buildable hb).symm.trans ht
    exact ⟨s.built_clock, s.built_entropyReads, s.built_entropyPort⟩
  · obtain ⟨v, e, -, hbuild⟩ := exec_build_of_not_buildable hb
    cases hbuild.symm.trans ht
    exact ⟨.inl ⟨rfl, rfl⟩, rfl, rfl⟩

/-- In SEND the clock is BUILD's to read, the entropy port ENCRYPT's. -/
theorem send_ports {s t : State} (ht : exec .send s = .next t) :
    s.clockAtMostOnce t ∧ s.entropyAtMostOnce t := by
  rcases send_endings ht with ⟨-, -, -, hclock, hport, hreads, -⟩ | ⟨-, hencrypt⟩
  · exact ⟨.inl hclock, .inl ⟨hreads, hport⟩⟩
  · obtain ⟨⟨hport, hreads⟩, hentropy⟩ := encrypt_ports hencrypt
    rw [State.entropyAtMostOnce, State.entropyReadOnce, s.built_entropyReads, s.built_entropyPort] at hentropy
    rw [State.clockAtMostOnce, State.sameClock, hport, hreads]
    exact ⟨s.built_clock, hentropy⟩

/-- Settles O48, command by command. -/
theorem portsAreReadAtMostOncePerCommand : Obligations.PortsAreReadAtMostOncePerCommand := by
  intro i s t ht
  cases i with
  | build =>
    obtain ⟨hclock, hentropy⟩ := build_ports ht
    exact ⟨hclock.imp_right fun h => ⟨.inl rfl, h⟩, .inl hentropy⟩
  | encrypt =>
    obtain ⟨hclock, hentropy⟩ := encrypt_ports ht
    exact ⟨.inl hclock, hentropy.imp_right fun h => ⟨.inl rfl, h⟩⟩
  | send =>
    obtain ⟨hclock, hentropy⟩ := send_ports ht
    exact ⟨hclock.imp_right fun h => ⟨.inr rfl, h⟩, hentropy.imp_right fun h => ⟨.inr rfl, h⟩⟩
  | crcAppend =>
    rcases execCrcAppend_cases s with ⟨-, e⟩ | ⟨-, e⟩ <;> cases e.symm.trans ht <;>
      exact ⟨.inl ⟨rfl, rfl⟩, .inl ⟨rfl, rfl⟩⟩
  | crcInit => cases ht; exact ⟨.inl ⟨rfl, rfl⟩, .inl ⟨rfl, rfl⟩⟩
  | crcUpdate => cases ht; exact ⟨.inl ⟨rfl, rfl⟩, .inl ⟨rfl, rfl⟩⟩

end Sys2Proof.Machine
end
